-- ==== Sys2Proof/Word.lean ====
section
/-! DEFINITION. The word types of the machine (R10, R130). -/

namespace Sys2Proof

/-- A byte of memory. -/
abbrev Byte := BitVec 8

/-- A 32-bit register, virtual address or instruction word. -/
abbrev Word := BitVec 32

/-- A 36-bit physical address (R130). -/
abbrev PAddr := BitVec 36

/-- A register number as an instruction writes it: five bits, x[0..31] or f[0..31]. -/
abbrev Reg := BitVec 5

/-- An address space identifier (R130). -/
abbrev Asi := BitVec 8

/-- A trap type, as TBR.tt holds it (R46). -/
abbrev TrapType := BitVec 8

end Sys2Proof
end

