-- ==== Sys2Proof/Config.lean ====
section
/-! DEFINITION. What the silicon fixes and the spec does not state: constants WITHOUT a body, so that nothing can be
proved of their values. A statement that mentions one holds for every value it could have. -/

namespace Sys2Proof

/-- The source of every free value a step draws. The machine applies it to `State.fresh`, which grows at every draw, so
two draws are unrelated. `notes/assumptions/33.md` lists the uses. -/
opaque Config.freeBits : Nat → BitVec 64

/-- The silicon variant: true for STP1021A, false for STP1021 (R9, R921). Log 14. -/
opaque Config.stp1021A : Bool

/-- R181: "entries for supervisor-only pages, ACC 6 or 7, may match in any context". Log 6. -/
opaque Config.supervisorPagesMatchAnyContext : Bool

/-- The code of the LVL field: which two bits stand for which table level (N17). Log 8. -/
opaque Config.lvlCode : Equiv.Perm (BitVec 2)

/-- Which of the 512 lines of the data cache an address in ASI 0x0E names (N21). Log 20. -/
opaque Config.dcacheLine : Word → Fin 512

/-- R655, D7: "a type-4 probe may load the PTE it found into the D-TLB". Log 25. -/
opaque Config.probe4Fills : Bool

/-- `CTX_BITS`, the width of a context number (R9, R59: OPEN). Log 13. -/
opaque Config.ctxBits : Fin 33

/-- R78, N24: whether a 1 in BKM makes its bit count in the match of a breakpoint, or a 0 does. Log 49. -/
opaque Config.breakMaskCompares : Bool

/-- R77, N24: whether the code breakpoint watches the instructions of a mode, by CSPACE and PSR.S. Log 49. -/
opaque Config.codeSpaceWatched : Bool → Bool → Bool

/-- R166, D10: the physical page from which boot mode fetches a virtual page. Log 12. -/
opaque Config.bootPage : BitVec 20 → BitVec 24

end Sys2Proof
end

