-- ==== Sys2Proof/Machine/State.lean ====
section
/-! DEFINITION. The state of the machine as plain data, why a step stops, and the state after reset (10_state.md). -/

namespace Sys2Proof.Machine

/-! ## Integer unit -/

/-- The writable fields of the Processor State Register (R38, R40). Bits 31:24 read 0x40 (R39); bits 19:16, 14 and
4:3 read 0 (R44, R40), so they are no field. -/
structure Psr where
  /-- icc: negative, zero, overflow, carry. -/
  n : Bool
  z : Bool
  v : Bool
  c : Bool
  /-- Default endianness: true is little-endian (R41). -/
  de : Bool
  /-- Enable coprocessor; no effect (D26). -/
  ec : Bool
  /-- Enable floating-point unit. -/
  ef : Bool
  /-- Processor interrupt level. -/
  pil : BitVec 4
  /-- Supervisor. -/
  s : Bool
  /-- Previous supervisor. -/
  ps : Bool
  /-- Enable traps. -/
  et : Bool
  /-- Current window pointer. -/
  cwp : BitVec 3
deriving DecidableEq, Repr

/-- The Trap Base Register (R46); its bits 3:0 read 0. -/
structure Tbr where
  tba : BitVec 20
  tt : TrapType
deriving DecidableEq, Repr

/-! ## Floating-point unit -/

/-- The fields of the Floating-point State Register that hold state (R50). `ver` is 0 and `qne` is computed from the
queue (R53). Exception vectors stand in the order nv, of, uf, dz, nx from bit 4 down. -/
structure Fsr where
  rd : BitVec 2
  tem : BitVec 5
  ns : Bool
  ftt : BitVec 3
  fcc : BitVec 2
  aexc : BitVec 5
  cexc : BitVec 5
deriving DecidableEq, Repr

/-- The mode of the FPU (R54). -/
inductive FpMode where
  | execute
  | exceptionPending
  | exception
deriving DecidableEq, Repr

/-! ## MMU -/

/-- The bits of MCNTL that take a stored value (R55, R662). -/
structure Mcntl where
  /-- Table-walk cacheable. -/
  tc : Bool
  /-- Alternate cacheable. -/
  ac : Bool
  /-- Snoop enable. -/
  se : Bool
  /-- Boot mode. -/
  bt : Bool
  /-- Parity enable. -/
  pe : Bool
  /-- Store buffer enable. -/
  sb : Bool
  /-- Instruction cache enable. -/
  ie : Bool
  /-- Data cache enable. -/
  de : Bool
  /-- Partial store ordering. -/
  pso : Bool
  /-- No fault. -/
  nf : Bool
  /-- MMU enable. -/
  en : Bool
deriving DecidableEq, Repr

/-- The fields of MFSR whose place is known (R60). -/
structure Mfsr where
  /-- OW: an unread fault was overwritten. -/
  ow : Bool
  /-- FAV: MFAR is valid. -/
  fav : Bool
  /-- FT. -/
  ftype : BitVec 3
  /-- AT. -/
  atype : BitVec 3
  /-- L. -/
  level : BitVec 2
  /-- Bits 31:10, whose meaning no source gives (N14). -/
  high : BitVec 22
deriving DecidableEq, Repr

/-- A TLB entry (R64). An I-TLB entry keeps `m` and `rbo` false (R65, R66). -/
structure TlbEntry where
  /-- Virtual tag, va[31:12]. -/
  vtag : BitVec 20
  /-- Context tag: the context number of the walk that made the entry. -/
  ctx : Word
  /-- Physical page number, pa[35:12]. -/
  ppn : BitVec 24
  /-- Cacheable. -/
  c : Bool
  /-- Modified. -/
  m : Bool
  /-- Valid. -/
  v : Bool
  /-- Access permissions. -/
  acc : BitVec 3
  /-- The level of the table that held the PTE: 3 is a 4 KB page, 0 the whole context. -/
  level : BitVec 2
  /-- Reverse byte ordering. -/
  rbo : Bool
  /-- Not chosen for replacement. -/
  lock : Bool
deriving DecidableEq, Repr

/-- PTP0, the cached root pointer (R68): pointer bits 31:6 and the valid field (D44). -/
structure Ptp0 where
  ptr : BitVec 26
  valid : BitVec 2
deriving DecidableEq, Repr

/-- A cached level-2 pointer (R69): pointer bits 31:4, the valid field, and the tag va[31:18]. -/
structure Ptp2 where
  ptr : BitVec 28
  valid : BitVec 2
  tag : BitVec 14
deriving DecidableEq, Repr

/-- The MMU (R55 to R71). -/
structure Mmu where
  cntl : Mcntl
  /-- MCTP[31:2]. -/
  ctp : BitVec 30
  /-- MCTX: a context number of `Config.ctxBits` bits (R59, log 13). -/
  ctx : Word
  fsr : Mfsr
  far : Word
  itlb : Vector TlbEntry 16
  dtlb : Vector TlbEntry 64
  ptp0 : Ptp0
  iptp2 : Ptp2
  dptp2 : Vector Ptp2 4
deriving DecidableEq, Repr

/-! ## Caches, queues and monitor -/

/-- A data cache tag as ASI 0x0E shows it (R74). -/
structure DTag where
  v : Bool
  paddr : BitVec 24
  /-- Software has reset the valid bit of this line since power-on, by flash clear or through ASI 0x0E (R73, R705). -/
  cleared : Bool
deriving DecidableEq, Repr

/-- A word of memory that this processor replaced by a store and that a fetch may still return (R205, D12): the word
`old` stood at physical address `pa :: 00`. `cleared` lists the virtual doublewords FLUSH has named since. -/
structure Stale where
  pa : BitVec 34
  old : Word
  cleared : List (BitVec 29)
deriving DecidableEq, Repr

/-- CTRC (R81). -/
structure Ctrc where
  selA : BitVec 8
  ua : Bool
  ka : Bool
  aen : Bool
  selB : BitVec 8
  ub : Bool
  kb : Bool
  ben : Bool
deriving DecidableEq, Repr

/-- The monitor (R77 to R83), with the pending state of R784. -/
structure Monitor where
  /-- BKC: CSPACE, PAMD, CBFEN, CBKEN, DBFEN, DBREN, DBWEN from bit 6 down. -/
  bkc : BitVec 7
  bkv : Word
  bkm : Word
  kernel : Word
  counterA : Word
  counterB : Word
  ctrc : Ctrc
  /-- CTRS bit 1. -/
  zacis : Bool
  /-- CTRS bit 0. -/
  zbcis : Bool
  /-- ACTION bits 12:0. -/
  action : BitVec 13
  /-- CounterA has made a monitor interrupt pending. -/
  pendA : Bool
  /-- CounterB has made a monitor interrupt pending. -/
  pendB : Bool
  /-- A code breakpoint has made a monitor interrupt pending. -/
  pendC : Bool
  /-- A data breakpoint has made a monitor interrupt pending. -/
  pendD : Bool
deriving DecidableEq, Repr

/-! ## The machine -/

/-- The whole state of one SuperSPARC II processor and its physical memory. INVENTORY.md names the rule and the reset
value of each field. -/
structure State where
  /-- x[0..7]; entry 0 is never read (R31). -/
  globals : Vector Word 8
  /-- The windowed registers W[0..127] of R33. -/
  windows : Vector Word 128
  pc : Word
  npc : Word
  psr : Psr
  wim : BitVec 8
  tbr : Tbr
  y : Word
  f : Vector Word 32
  fsr : Fsr
  /-- The floating-point queue, front first: address and instruction word (R53). -/
  fq : List (Word × Word)
  fpMode : FpMode
  mmu : Mmu
  /-- One tag for each of the 512 lines of the data cache (R73, R74). -/
  dtags : Vector DTag 512
  /-- Software has flash-cleared the instruction cache since power-on (R72). -/
  icacheCleared : Bool
  mon : Monitor
  /-- Physical memory: strictly rising addresses, no entry equal to what an unlisted address reads as. -/
  mem : List Host.Cell
  /-- What instruction fetch may still see of replaced words (R205). -/
  stale : List Stale
  /-- Samples of the interrupt request level still to come, one for each step; none left reads as 0 (D11). -/
  irl : List (BitVec 4)
  /-- The processor has halted in error mode (R797). -/
  errorMode : Bool
  /-- The model's own: how many free values have been drawn. -/
  fresh : Nat
  /-- The model's own: the last instruction was a taken conditional branch (R443). -/
  condTaken : Bool
  /-- The model's own: this step took a trap or an interrupt. -/
  trapped : Bool
  /-- The model's own: this instruction wrote CounterA. -/
  wroteA : Bool
  /-- The model's own: this instruction wrote CounterB. -/
  wroteB : Bool
deriving DecidableEq, Repr

/-- Why the machine stops for good. -/
inductive Fault where
  /-- Raised by a step of a processor that has halted in error mode (R797, D34). Safe: only reset leaves that mode. -/
  | errorMode
  /-- Raised by a TLB miss when every entry of that TLB is locked, so that no entry may be replaced and the walk cannot
  complete (R67, R876). Safe. An interrupt accepted at that boundary is taken instead: a DESIGN CHOICE (log 52). -/
  | tlbDeadlock
deriving DecidableEq, Repr

/-- Why the model gives no next state. Each is safe: the model stops where the hardware goes on. An interrupt accepted at the
boundary before such an instruction is taken instead of the refusal: a DESIGN CHOICE (log 52). -/
inductive Refusal where
  /-- Raised by `exec` for an instruction without a meaning. -/
  | notModelled (mnemonic : String)
  /-- Raised by the step: a reserved bit of the instruction word is 1 (R247, D13), and no interrupt is accepted (log 52). -/
  | reservedBits
  /-- Raised by a load or store in ASI 0x02, the registers of the MXCC, a platform device (R745). -/
  | mxccControlSpace
  /-- Raised by an access in ASI 0x0C, 0x0D or 0x0F, whose formats no source gives (R708). -/
  | cacheDiagnostic
  /-- Raised by an access in ASI 0x30 to 0x32, whose formats no source gives (R710). -/
  | storeBufferDiagnostic
  /-- Raised by an access in ASI 0x39: BIST, whose effect no source gives (R728, D45). -/
  | bist
  /-- Raised by an access whose width the register's ASI does not define (R642, R701). -/
  | asiWidth
  /-- Raised by an access in ASI 0x04 or 0x38 at an address that names no described register (R660, R722). -/
  | asiRegister
  /-- Raised by an access in ASI 0x05 or 0x06 with Sel 0, 1 or 7, whose formats no source gives (R679). -/
  | tlbSelect
  /-- Raised by a store that writes 10 or 11 to the valid field of PTP0 or a PTP2, which is "outside the spec" (R677). -/
  | ptpValid
  /-- Raised by a store in ASI 0x05 or 0x06 after which every entry of that TLB would be locked and valid: "a model should
  refuse the state" (R876). -/
  | tlbAllLocked
  /-- Raised by a store that enables the instruction or the data cache before software has cleared its valid bits: the
  enabled cache could answer with arbitrary data (R860; 93_implementation_defined.md, section 1). -/
  | cacheNotCleared
  /-- Raised by a store to MFSR, MFAR or CTRS, or a load in ASI 0x36 or 0x37: no source says what it does (R665, R666,
  R736, R712). -/
  | undescribedDirection
  /-- Raised by LDSTUBA or SWAPA in an ASI that is not memory (R411, R413). -/
  | atomicRegister
  /-- Raised by a store that sets BKC.PAMD, which "has no defined effect" (R723; 93_implementation_defined.md). -/
  | physicalBreakpoint
  /-- Raised by a store of CTRC with a reserved counter selection (R734). -/
  | counterSelect
  /-- Raised by a store of CTRC or ACTION after which an enabled cycle-selected counter could interrupt (R820). -/
  | cycleCounterInterrupt
deriving DecidableEq, Repr

/-- Everything at once after power-on (R120, R798, R852); a value the spec does not give is zero (log 15). -/
def State.reset : State where
  globals := Vector.replicate 8 0
  windows := Vector.replicate 128 0
  pc := 0
  npc := 4
  psr :=
    { n := false, z := false, v := false, c := false, de := false, ec := false, ef := false, pil := 0, s := true,
      ps := false, et := false, cwp := 0 }
  wim := 0
  tbr := { tba := 0, tt := 0 }
  y := 0
  f := Vector.replicate 32 0
  fsr := { rd := 0, tem := 0, ns := false, ftt := 0, fcc := 0, aexc := 0, cexc := 0 }
  fq := []
  fpMode := .execute
  mmu :=
    { cntl :=
        { tc := false, ac := false, se := false, bt := true, pe := false, sb := false, ie := false, de := false,
          pso := false, nf := false, en := false }
      ctp := 0
      ctx := 0
      fsr := { ow := false, fav := false, ftype := 0, atype := 0, level := 0, high := 0 }
      far := 0
      itlb := Vector.replicate 16
        { vtag := 0, ctx := 0, ppn := 0, c := false, m := false, v := false, acc := 0, level := 0, rbo := false,
          lock := false }
      dtlb := Vector.replicate 64
        { vtag := 0, ctx := 0, ppn := 0, c := false, m := false, v := false, acc := 0, level := 0, rbo := false,
          lock := false }
      ptp0 := { ptr := 0, valid := 0 }
      iptp2 := { ptr := 0, valid := 0, tag := 0 }
      dptp2 := Vector.replicate 4 { ptr := 0, valid := 0, tag := 0 } }
  dtags := Vector.replicate 512 { v := false, paddr := 0, cleared := false }
  icacheCleared := false
  mon :=
    { bkc := 0, bkv := 0, bkm := 0, kernel := 0, counterA := 0, counterB := 0
      ctrc := { selA := 0, ua := false, ka := false, aen := false, selB := 0, ub := false, kb := false, ben := false }
      zacis := false, zbcis := false, action := 0, pendA := false, pendB := false, pendC := false, pendD := false }
  mem := []
  stale := []
  irl := []
  errorMode := false
  fresh := 0
  condTaken := false
  trapped := false
  wroteA := false
  wroteB := false

end Sys2Proof.Machine
end

