-- ==== Sys2Proof/Machine/Ops.lean ====
section
/-! DEFINITION. The named operations every meaning is written over: results, free values, registers, program counters,
status words, physical memory, taking a trap and returning from one. -/

namespace Sys2Proof.Machine

/-! ## Results -/

/-- What a part of an instruction can do: go on with a value, raise a trap, or stop. The state of a trap carries what
its cause has recorded (MFSR, MFAR, FSR.ftt) and nothing else the instruction would have written (R788). -/
inductive Res (α : Type) where
  | ok (a : α) (s : State)
  | trap (tt : TrapType) (s : State)
  | fault (r : Fault)
  | refused (r : Refusal)

/-- What an instruction answers. -/
abbrev Result := Host.Outcome State Fault Refusal

/-- Go on with the value, if there is one. -/
def andThen {α β : Type} (x : Res α) (f : α → State → Res β) : Res β :=
  match x with
  | .ok a s => f a s
  | .trap tt s => .trap tt s
  | .fault r => .fault r
  | .refused r => .refused r

/-! ## Free values -/

/-- The next free value: nothing constrains it. -/
def freeValue (s : State) : BitVec 64 := Config.freeBits s.fresh

/-- The state after one free value has been drawn. -/
def drawn (s : State) : State := { s with fresh := s.fresh + 1 }

/-- An index below `n + 1`, drawn from a free value. -/
def freeIndex (n : Nat) (s : State) : Nat := (freeValue s).toNat % (n + 1)

/-- Every element of a register array changed by `f`. -/
def mapVec {α β : Type} {n : Nat} (f : α → β) (v : Vector α n) : Vector β n := Vector.ofFn fun i => f v[i]

/-! ## Integer registers (R31, R33) -/

/-- R33: where `x[r]` of window `w` stands, for `r` from 8 up. -/
def windowIndex (w : BitVec 3) (r : Reg) : Fin 128 :=
  ⟨(16 * w.toNat + (r.toNat - 8)) % 128, Nat.mod_lt _ (by decide)⟩

/-- `xw(w)[r]`; `x[0]` reads 0. -/
def readRegIn (w : BitVec 3) (r : Reg) (s : State) : Word :=
  if r = 0 then 0
  else if h : r.toNat < 8 then s.globals[r.toNat]
  else s.windows[windowIndex w r]

/-- `xw(w)[r] <- v`; a write of `x[0]` is discarded. -/
def writeRegIn (w : BitVec 3) (r : Reg) (v : Word) (s : State) : State :=
  if r = 0 then s
  else if h : r.toNat < 8 then { s with globals := s.globals.set r.toNat v }
  else { s with windows := s.windows.set (windowIndex w r) v }

/-- `x[r]`. -/
def readReg (r : Reg) (s : State) : Word := readRegIn s.psr.cwp r s

/-- `x[r] <- v`. -/
def writeReg (r : Reg) (v : Word) (s : State) : State := writeRegIn s.psr.cwp r v s

/-- The odd register of the pair that starts at the even register `r`. -/
def pairOdd (r : Reg) : Reg := r ||| 1

/-- The even register of the pair that holds `r`; a floating-point double ignores the low bit of its register number. Of
the two effects R557 and U5 allow for an odd number, R770 excludes the trap with ftt 6 (DEDUCED, log 2, also on the refusal
that U5 and R883 advise). -/
def pairEven (r : Reg) : Reg := r &&& 0x1E

/-! ## Floating-point registers (R49) -/

/-- `f[r]`. -/
def readF (r : Reg) (s : State) : Word := s.f[r.toNat]

/-- `f[r] <- v`. -/
def writeF (r : Reg) (v : Word) (s : State) : State := { s with f := s.f.set r.toNat v }

/-- The double in the pair of `r`, the even register the high half. -/
def readD (r : Reg) (s : State) : BitVec 64 := readF (pairEven r) s ++ readF (pairOdd r) s

/-- Write a double to the pair of `r`. -/
def writeD (r : Reg) (v : BitVec 64) (s : State) : State :=
  writeF (pairOdd r) (v.extractLsb' 0 32) (writeF (pairEven r) (v.extractLsb' 32 32) s)

/-! ## Program counters (R36, R440) -/

/-- An instruction that transfers no control: `pc <- npc; npc <- npc + 4`. -/
def advance (s : State) : State := { s with pc := s.npc, npc := s.npc + 4, condTaken := false }

/-- A free program counter: any multiple of 4 (log 3). -/
def freePc (s : State) : Word := (freeValue s).extractLsb' 0 30 ++ 0#2

/-- Set both program counters by a taken transfer. After a taken conditional branch they are free: V8 leaves such a
couple unpredictable (R443, U6). R883 advises a model to refuse it rather than define it: with free counters nothing is
defined, and the instruction runs (log 3). -/
def transfer (conditional : Bool) (pc npc : Word) (s : State) : State :=
  if s.condTaken then
    { s with pc := freePc s, npc := freePc (drawn s), condTaken := conditional, fresh := s.fresh + 2 }
  else { s with pc := pc, npc := npc, condTaken := conditional }

/-- A taken delayed transfer: `pc <- npc; npc <- t` (R440). -/
def jump (conditional : Bool) (t : Word) (s : State) : State := transfer conditional s.npc t s

/-! ## Status words -/

/-- The PSR as a word (R38, R39, R44). -/
def psrWord (p : Psr) : Word :=
  0x40#8 ++ BitVec.ofBool p.n ++ BitVec.ofBool p.z ++ BitVec.ofBool p.v ++ BitVec.ofBool p.c ++ 0#4 ++
    BitVec.ofBool p.de ++ 0#1 ++ BitVec.ofBool p.ec ++ BitVec.ofBool p.ef ++ p.pil ++ BitVec.ofBool p.s ++
    BitVec.ofBool p.ps ++ BitVec.ofBool p.et ++ 0#2 ++ p.cwp

/-- The fields of a PSR from a word (R531). -/
def psrOfWord (w : Word) : Psr where
  n := w.getLsbD 23
  z := w.getLsbD 22
  v := w.getLsbD 21
  c := w.getLsbD 20
  de := w.getLsbD 15
  ec := w.getLsbD 13
  ef := w.getLsbD 12
  pil := w.extractLsb' 8 4
  s := w.getLsbD 7
  ps := w.getLsbD 6
  et := w.getLsbD 5
  cwp := w.extractLsb' 0 3

/-- The TBR as a word (R46). -/
def tbrWord (t : Tbr) : Word := t.tba ++ t.tt ++ 0#4

/-- The FSR as a word (R50); `qne` is 1 when the queue is not empty (R53). -/
def fsrWord (s : State) : Word :=
  s.fsr.rd ++ 0#2 ++ s.fsr.tem ++ BitVec.ofBool s.fsr.ns ++ 0#2 ++ 0#3 ++ s.fsr.ftt ++
    BitVec.ofBool (!s.fq.isEmpty) ++ 0#1 ++ s.fsr.fcc ++ s.fsr.aexc ++ s.fsr.cexc

/-- The FSR after LDFSR of `w`: ver, ftt and qne keep their values (R397). -/
def fsrLoad (w : Word) (r : Fsr) : Fsr :=
  { r with
    rd := w.extractLsb' 30 2
    tem := w.extractLsb' 23 5
    ns := w.getLsbD 22
    fcc := w.extractLsb' 10 2
    aexc := w.extractLsb' 5 5
    cexc := w.extractLsb' 0 5 }

/-! ## Physical memory

One byte for each of the 2^36 addresses (R130), in one layout whatever the byte order of an access (R140). A byte that
is not listed reads 0 (log 11). -/

/-- The byte at a physical address. -/
def Memory.readByte : List Host.Cell → Nat → Byte
  | [], _ => 0
  | (k, v) :: r, a => if k = a then v else Memory.readByte r a

/-- Write one byte and keep the canonical form. -/
def Memory.writeByte : List Host.Cell → Nat → Byte → List Host.Cell
  | [], a, b => if b = 0 then [] else [(a, b)]
  | (k, v) :: r, a, b =>
    if a < k then (if b = 0 then (k, v) :: r else (a, b) :: (k, v) :: r)
    else if a = k then (if b = 0 then r else (a, b) :: r)
    else (k, v) :: Memory.writeByte r a b

/-- The canonical form: addresses strictly rising from `lo` and below 2^36, no byte equal to 0. -/
def Memory.wfFrom : Nat → List Host.Cell → Bool
  | _, [] => true
  | lo, (k, v) :: r => decide (lo ≤ k) && decide (k < 2 ^ 36) && v != 0 && Memory.wfFrom (k + 1) r

/-- The canonical form of memory. -/
def Memory.wf (m : List Host.Cell) : Bool := Memory.wfFrom 0 m

/-- The `n` bytes from an address up. -/
def Memory.readBytes (m : List Host.Cell) (a : Nat) : Nat → List Byte
  | 0 => []
  | n + 1 => Memory.readByte m a :: Memory.readBytes m (a + 1) n

/-- Write bytes from an address up. -/
def Memory.writeBytes (m : List Host.Cell) (a : Nat) : List Byte → List Host.Cell
  | [] => m
  | b :: r => Memory.writeBytes (Memory.writeByte m a b) (a + 1) r

/-- The number the bytes spell, the first the most significant (R141). -/
def joinBytes (bs : List Byte) : BitVec 64 := bs.foldl (fun acc b => acc <<< 8 ||| b.setWidth 64) 0

/-- The `n` low bytes of a datum, the most significant first (R141). -/
def splitBytes (d : BitVec 64) : Nat → List Byte
  | 0 => []
  | n + 1 => d.extractLsb' (8 * n) 8 :: splitBytes d n

/-- The big-endian word at a physical address (R146). -/
def memWord (m : List Host.Cell) (a : PAddr) : Word := (joinBytes (Memory.readBytes m a.toNat 4)).setWidth 32

/-- Whether the processor may still fetch the replaced word of `e` at the physical word `pa` and virtual address `va`:
FLUSH of the doubleword of `va` forbids it (R540), and FLUSH of the physical doubleword has removed `e` (R206). -/
def staleAt (pa : PAddr) (va : Word) (e : Stale) : Bool :=
  e.pa == pa.extractLsb' 2 34 && !e.cleared.contains (va.extractLsb' 3 29)

/-- The words of `old` memory that a write of `n` bytes at `pa` has replaced, as fetch may still see them (D12). A write
touches one word, or two when it is a doubleword. -/
def noteStale (old new : List Host.Cell) (pa : PAddr) (list : List Stale) : List Stale :=
  let w := pa.extractLsb' 2 34
  if memWord old (w ++ 0#2) = memWord new (w ++ 0#2) then list
  else { pa := w, old := memWord old (w ++ 0#2), cleared := [] } :: list

/-- Store bytes at a physical address. What they replace stays visible to fetch until a FLUSH (R205, D12). -/
def storeBytes (pa : PAddr) (bs : List Byte) (s : State) : State :=
  let new := Memory.writeBytes s.mem pa.toNat bs
  { s with
    mem := new
    stale :=
      noteStale s.mem new pa (if bs.length = 8 then noteStale s.mem new (pa + 4) s.stale else s.stale) }

/-! ## Traps (R790, R797, R793) -/

/-- TBA :: tt :: 0000. -/
def trapVector (t : Tbr) : Word := tbrWord t

/-- Taking a trap of type `tt` (R790). With ET = 0 the processor halts in error mode with `tt` in the TBR (R797). -/
def takeTrap (tt : TrapType) (s : State) : State :=
  if s.psr.et then
    let w := s.psr.cwp - 1
    let s1 := writeRegIn w 18 s.npc (writeRegIn w 17 s.pc s)
    let tbr := { s.tbr with tt := tt }
    { s1 with
      psr := { s.psr with et := false, ps := s.psr.s, s := true, cwp := w }
      tbr := tbr
      pc := trapVector tbr
      npc := trapVector tbr + 4
      condTaken := false
      trapped := true }
  else { s with tbr := { s.tbr with tt := tt }, errorMode := true, trapped := true }

/-- The return from a trap to `t` (R472, R793): the window above, ET set, S from PS, as a delayed transfer. -/
def returnFromTrap (t : Word) (s : State) : State :=
  jump false t { s with psr := { s.psr with et := true, cwp := s.psr.cwp + 1, s := s.psr.ps } }

/-- The reset the processor or its surroundings give after error mode (R798, the watchdog column of R120): it is an
input from outside and no step performs it. Where that column says "same", as of PSR.DE, the value is that of power-on;
that every register it leaves unspecified is kept, and a pending monitor interrupt too (neither R120 nor R784 says), is
a DESIGN CHOICE (log 35). -/
def watchdogReset (s : State) : State :=
  { s with
    pc := 0
    npc := 4
    psr := { s.psr with s := true, et := false, de := false }
    fsr := { s.fsr with ftt := 0 }
    fq := []
    fpMode := .execute
    mmu := { s.mmu with cntl := { s.mmu.cntl with en := false, bt := true } }
    mon := { s.mon with zacis := false, zbcis := false }
    errorMode := false
    condTaken := false }

/-! ## Ending an instruction -/

/-- Taking a trap in `s` whose cause has been recorded in `t`. On the way into error mode nothing is recorded: every
register but TBR.tt is as it was (R797). -/
def takeTrapWith (tt : TrapType) (s t : State) : State := takeTrap tt (if s.psr.et then t else s)

/-- The outcome of an instruction that began in `s`: a trap is taken. -/
def finish (s : State) (x : Res Unit) : Result :=
  match x with
  | .ok () t => .next t
  | .trap tt t => .next (takeTrapWith tt s t)
  | .fault r => .fault r
  | .refused r => .refused r

/-! ### Trap types (R762) -/

def ttInstructionAccess : TrapType := 0x01
def ttIllegal : TrapType := 0x02
def ttPrivileged : TrapType := 0x03
def ttFpDisabled : TrapType := 0x04
def ttWindowOverflow : TrapType := 0x05
def ttWindowUnderflow : TrapType := 0x06
def ttNotAligned : TrapType := 0x07
def ttFpException : TrapType := 0x08
def ttDataAccess : TrapType := 0x09
def ttTagOverflow : TrapType := 0x0A
def ttCpDisabled : TrapType := 0x24
def ttDivisionByZero : TrapType := 0x2A

end Sys2Proof.Machine
end

