-- ==== Sys2Proof/Machine/Flags.lean ====
section
/-! DEFINITION. Condition codes: how results set icc (R43) and what the conditions test (R243, R244). -/

namespace Sys2Proof.Machine

/-- The integer condition codes an instruction computes. -/
structure Icc where
  n : Bool
  z : Bool
  v : Bool
  c : Bool
deriving DecidableEq, Repr

/-- Write icc. -/
def setIcc (i : Icc) (s : State) : State :=
  { s with psr := { s.psr with n := i.n, z := i.z, v := i.v, c := i.c } }

/-- R43: overflow of `a + b + carry`, whose result is `r`. -/
def addOverflow (a b r : Word) : Bool := (a.msb && b.msb && !r.msb) || (!a.msb && !b.msb && r.msb)
/-- R43: carry out of bit 31 of `a + b + carry`. -/
def addCarry (a b r : Word) : Bool := (a.msb && b.msb) || (!r.msb && (a.msb || b.msb))
/-- R43: overflow of `a - b - borrow`. -/
def subOverflow (a b r : Word) : Bool := (a.msb && !b.msb && !r.msb) || (!a.msb && b.msb && r.msb)
/-- R43: borrow into bit 31 of `a - b - borrow`. -/
def subCarry (a b r : Word) : Bool := (!a.msb && b.msb) || (r.msb && (!a.msb || b.msb))

/-- icc of an addition with result `r`. -/
def addIcc (a b r : Word) : Icc := { n := r.msb, z := r == 0, v := addOverflow a b r, c := addCarry a b r }
/-- icc of a subtraction with result `r`. -/
def subIcc (a b r : Word) : Icc := { n := r.msb, z := r == 0, v := subOverflow a b r, c := subCarry a b r }
/-- icc of a result whose C is 0 and whose V is `v`: logic and multiply (V = 0), divide (R326). -/
def plainIcc (r : Word) (v : Bool) : Icc := { n := r.msb, z := r == 0, v := v, c := false }

/-- `tagv`: a tag bit of an operand is set (R307). -/
def tagged (a b : Word) : Bool := a.extractLsb' 0 2 != 0 || b.extractLsb' 0 2 != 0
/-- icc of TADDcc (R307). -/
def taggedAddIcc (a b r : Word) : Icc := { addIcc a b r with v := addOverflow a b r || tagged a b }
/-- icc of TSUBcc (R308). -/
def taggedSubIcc (a b r : Word) : Icc := { subIcc a b r with v := subOverflow a b r || tagged a b }

/-! ## The tests of Bicc and Ticc (R243) -/

def testE (p : Psr) : Bool := p.z
def testLe (p : Psr) : Bool := p.z || (p.n != p.v)
def testL (p : Psr) : Bool := p.n != p.v
def testLeu (p : Psr) : Bool := p.c || p.z
def testCs (p : Psr) : Bool := p.c
def testNeg (p : Psr) : Bool := p.n
def testVs (p : Psr) : Bool := p.v
def testNe (p : Psr) : Bool := !p.z
def testG (p : Psr) : Bool := !(p.z || (p.n != p.v))
def testGe (p : Psr) : Bool := !(p.n != p.v)
def testGu (p : Psr) : Bool := !(p.c || p.z)
def testCc (p : Psr) : Bool := !p.c
def testPos (p : Psr) : Bool := !p.n
def testVc (p : Psr) : Bool := !p.v

/-! ## The relations of FBfcc (R244) -/

/-- fcc: equal. -/
def fccE : BitVec 2 := 0
/-- fcc: less. -/
def fccL : BitVec 2 := 1
/-- fcc: greater. -/
def fccG : BitVec 2 := 2
/-- fcc: unordered. -/
def fccU : BitVec 2 := 3

end Sys2Proof.Machine
end

