-- ==== Sys2Proof/Syntax.lean ====
section
/-! DEFINITION. The instructions: one constructor for each row of spec/opcode_table.json, in the table's order. -/

namespace Sys2Proof

/-- The second ALU operand (R238): a register when `i` = 0, a signed 13-bit immediate when `i` = 1. -/
inductive Opnd2 where
  | reg (rs2 : Reg)
  | imm (simm13 : BitVec 13)
deriving DecidableEq, Repr

/-- A destination register and the operand field beside it, which RDASR, RDWIM and RDTBR do not look at (R521, R523, R524,
log 1). -/
structure DestOpnd where
  rd : Reg
  opnd : Opnd2
deriving DecidableEq, Repr

/-- A shift count (R301): the low five bits of a register when `i` = 0, `shcnt` when `i` = 1. -/
inductive ShCount where
  | reg (rs2 : Reg)
  | cnt (shcnt : BitVec 5)
deriving DecidableEq, Repr

/-- The trap number operand of Ticc (R485): a register, or `imm7`; only seven bits of the sum are used. -/
inductive TrapNum where
  | reg (rs2 : Reg)
  | imm (imm7 : BitVec 7)
deriving DecidableEq, Repr

/-- An instruction. An alternate-space form keeps its `i` bit, because `i` = 1 is an encoding that traps (R246); its
bits 12:0 stand in `asi` and `rs2` then too. `unimp` keeps bits 29:25, which no rule reads. -/
inductive Instr where
  /-- UNIMP, R541. -/
  | unimp (rd : BitVec 5) (const22 : BitVec 22)
  /-- SETHI, R305. -/
  | sethi (rd : Reg) (imm22 : BitVec 22)
  /-- NOP, R306. -/
  | nop
  /-- BN, R445. -/
  | bn (a : Bool) (disp22 : BitVec 22)
  /-- BE, R446. -/
  | be (a : Bool) (disp22 : BitVec 22)
  /-- BLE, R447. -/
  | ble (a : Bool) (disp22 : BitVec 22)
  /-- BL, R448. -/
  | bl (a : Bool) (disp22 : BitVec 22)
  /-- BLEU, R449. -/
  | bleu (a : Bool) (disp22 : BitVec 22)
  /-- BCS, R450. -/
  | bcs (a : Bool) (disp22 : BitVec 22)
  /-- BNEG, R451. -/
  | bneg (a : Bool) (disp22 : BitVec 22)
  /-- BVS, R452. -/
  | bvs (a : Bool) (disp22 : BitVec 22)
  /-- BA, R453. -/
  | ba (a : Bool) (disp22 : BitVec 22)
  /-- BNE, R454. -/
  | bne (a : Bool) (disp22 : BitVec 22)
  /-- BG, R455. -/
  | bg (a : Bool) (disp22 : BitVec 22)
  /-- BGE, R456. -/
  | bge (a : Bool) (disp22 : BitVec 22)
  /-- BGU, R457. -/
  | bgu (a : Bool) (disp22 : BitVec 22)
  /-- BCC, R458. -/
  | bcc (a : Bool) (disp22 : BitVec 22)
  /-- BPOS, R459. -/
  | bpos (a : Bool) (disp22 : BitVec 22)
  /-- BVC, R460. -/
  | bvc (a : Bool) (disp22 : BitVec 22)
  /-- FBN, R504. -/
  | fbn (a : Bool) (disp22 : BitVec 22)
  /-- FBNE, R505. -/
  | fbne (a : Bool) (disp22 : BitVec 22)
  /-- FBLG, R506. -/
  | fblg (a : Bool) (disp22 : BitVec 22)
  /-- FBUL, R507. -/
  | fbul (a : Bool) (disp22 : BitVec 22)
  /-- FBL, R508. -/
  | fbl (a : Bool) (disp22 : BitVec 22)
  /-- FBUG, R509. -/
  | fbug (a : Bool) (disp22 : BitVec 22)
  /-- FBG, R510. -/
  | fbg (a : Bool) (disp22 : BitVec 22)
  /-- FBU, R511. -/
  | fbu (a : Bool) (disp22 : BitVec 22)
  /-- FBA, R512. -/
  | fba (a : Bool) (disp22 : BitVec 22)
  /-- FBE, R513. -/
  | fbe (a : Bool) (disp22 : BitVec 22)
  /-- FBUE, R514. -/
  | fbue (a : Bool) (disp22 : BitVec 22)
  /-- FBGE, R515. -/
  | fbge (a : Bool) (disp22 : BitVec 22)
  /-- FBUGE, R516. -/
  | fbuge (a : Bool) (disp22 : BitVec 22)
  /-- FBLE, R517. -/
  | fble (a : Bool) (disp22 : BitVec 22)
  /-- FBULE, R518. -/
  | fbule (a : Bool) (disp22 : BitVec 22)
  /-- FBO, R519. -/
  | fbo (a : Bool) (disp22 : BitVec 22)
  /-- CBN, R462. -/
  | cbn (a : Bool) (disp22 : BitVec 22)
  /-- CB123, R462. -/
  | cb123 (a : Bool) (disp22 : BitVec 22)
  /-- CB12, R462. -/
  | cb12 (a : Bool) (disp22 : BitVec 22)
  /-- CB13, R462. -/
  | cb13 (a : Bool) (disp22 : BitVec 22)
  /-- CB1, R462. -/
  | cb1 (a : Bool) (disp22 : BitVec 22)
  /-- CB23, R462. -/
  | cb23 (a : Bool) (disp22 : BitVec 22)
  /-- CB2, R462. -/
  | cb2 (a : Bool) (disp22 : BitVec 22)
  /-- CB3, R462. -/
  | cb3 (a : Bool) (disp22 : BitVec 22)
  /-- CBA, R462. -/
  | cba (a : Bool) (disp22 : BitVec 22)
  /-- CB0, R462. -/
  | cb0 (a : Bool) (disp22 : BitVec 22)
  /-- CB03, R462. -/
  | cb03 (a : Bool) (disp22 : BitVec 22)
  /-- CB02, R462. -/
  | cb02 (a : Bool) (disp22 : BitVec 22)
  /-- CB023, R462. -/
  | cb023 (a : Bool) (disp22 : BitVec 22)
  /-- CB01, R462. -/
  | cb01 (a : Bool) (disp22 : BitVec 22)
  /-- CB013, R462. -/
  | cb013 (a : Bool) (disp22 : BitVec 22)
  /-- CB012, R462. -/
  | cb012 (a : Bool) (disp22 : BitVec 22)
  /-- CALL, R465. -/
  | call (disp30 : BitVec 30)
  /-- ADD, R281. -/
  | add (rd rs1 : Reg) (o : Opnd2)
  /-- AND, R289. -/
  | and (rd rs1 : Reg) (o : Opnd2)
  /-- OR, R293. -/
  | or (rd rs1 : Reg) (o : Opnd2)
  /-- XOR, R297. -/
  | xor (rd rs1 : Reg) (o : Opnd2)
  /-- SUB, R285. -/
  | sub (rd rs1 : Reg) (o : Opnd2)
  /-- ANDN, R291. -/
  | andn (rd rs1 : Reg) (o : Opnd2)
  /-- ORN, R295. -/
  | orn (rd rs1 : Reg) (o : Opnd2)
  /-- XNOR, R299. -/
  | xnor (rd rs1 : Reg) (o : Opnd2)
  /-- ADDX, R283. -/
  | addx (rd rs1 : Reg) (o : Opnd2)
  /-- UMUL, R315. -/
  | umul (rd rs1 : Reg) (o : Opnd2)
  /-- SMUL, R317. -/
  | smul (rd rs1 : Reg) (o : Opnd2)
  /-- SUBX, R287. -/
  | subx (rd rs1 : Reg) (o : Opnd2)
  /-- UDIV, R325. -/
  | udiv (rd rs1 : Reg) (o : Opnd2)
  /-- SDIV, R327. -/
  | sdiv (rd rs1 : Reg) (o : Opnd2)
  /-- ADDcc, R282. -/
  | addcc (rd rs1 : Reg) (o : Opnd2)
  /-- ANDcc, R290. -/
  | andcc (rd rs1 : Reg) (o : Opnd2)
  /-- ORcc, R294. -/
  | orcc (rd rs1 : Reg) (o : Opnd2)
  /-- XORcc, R298. -/
  | xorcc (rd rs1 : Reg) (o : Opnd2)
  /-- SUBcc, R286. -/
  | subcc (rd rs1 : Reg) (o : Opnd2)
  /-- ANDNcc, R292. -/
  | andncc (rd rs1 : Reg) (o : Opnd2)
  /-- ORNcc, R296. -/
  | orncc (rd rs1 : Reg) (o : Opnd2)
  /-- XNORcc, R300. -/
  | xnorcc (rd rs1 : Reg) (o : Opnd2)
  /-- ADDXcc, R284. -/
  | addxcc (rd rs1 : Reg) (o : Opnd2)
  /-- UMULcc, R316. -/
  | umulcc (rd rs1 : Reg) (o : Opnd2)
  /-- SMULcc, R318. -/
  | smulcc (rd rs1 : Reg) (o : Opnd2)
  /-- SUBXcc, R288. -/
  | subxcc (rd rs1 : Reg) (o : Opnd2)
  /-- UDIVcc, R326. -/
  | udivcc (rd rs1 : Reg) (o : Opnd2)
  /-- SDIVcc, R328. -/
  | sdivcc (rd rs1 : Reg) (o : Opnd2)
  /-- TADDcc, R307. -/
  | taddcc (rd rs1 : Reg) (o : Opnd2)
  /-- TSUBcc, R308. -/
  | tsubcc (rd rs1 : Reg) (o : Opnd2)
  /-- TADDccTV, R309. -/
  | taddcctv (rd rs1 : Reg) (o : Opnd2)
  /-- TSUBccTV, R310. -/
  | tsubcctv (rd rs1 : Reg) (o : Opnd2)
  /-- MULScc, R311. -/
  | mulscc (rd rs1 : Reg) (o : Opnd2)
  /-- SLL, R301. -/
  | sll (rd rs1 : Reg) (n : ShCount)
  /-- SRL, R302. -/
  | srl (rd rs1 : Reg) (n : ShCount)
  /-- SRA, R303. -/
  | sra (rd rs1 : Reg) (n : ShCount)
  /-- RDY, R520. -/
  | rdy (rd : Reg)
  /-- STBAR, R525. -/
  | stbar
  /-- RDASR, R521. -/
  | rdasr (rd : DestOpnd) (rs1 : Reg)
  /-- RDPSR, R522. -/
  | rdpsr (rd : Reg)
  /-- RDWIM, R523. -/
  | rdwim (rd : DestOpnd)
  /-- RDTBR, R524. -/
  | rdtbr (rd : DestOpnd)
  /-- WRY, R529. -/
  | wry (rs1 : Reg) (o : Opnd2)
  /-- WRASR, R530. -/
  | wrasr (rd rs1 : Reg) (o : Opnd2)
  /-- WRPSR, R531. -/
  | wrpsr (rs1 : Reg) (o : Opnd2)
  /-- WRWIM, R533. -/
  | wrwim (rs1 : Reg) (o : Opnd2)
  /-- WRTBR, R534. -/
  | wrtbr (rs1 : Reg) (o : Opnd2)
  /-- FMOVs, R560. -/
  | fmovs (rd rs2 : Reg)
  /-- FNEGs, R561. -/
  | fnegs (rd rs2 : Reg)
  /-- FABSs, R562. -/
  | fabss (rd rs2 : Reg)
  /-- FSQRTs, R578. -/
  | fsqrts (rd rs2 : Reg)
  /-- FSQRTd, R579. -/
  | fsqrtd (rd rs2 : Reg)
  /-- FADDs, R565. -/
  | fadds (rd rs1 rs2 : Reg)
  /-- FADDd, R566. -/
  | faddd (rd rs1 rs2 : Reg)
  /-- FSUBs, R567. -/
  | fsubs (rd rs1 rs2 : Reg)
  /-- FSUBd, R568. -/
  | fsubd (rd rs1 rs2 : Reg)
  /-- FMULs, R570. -/
  | fmuls (rd rs1 rs2 : Reg)
  /-- FMULd, R571. -/
  | fmuld (rd rs1 rs2 : Reg)
  /-- FDIVs, R575. -/
  | fdivs (rd rs1 rs2 : Reg)
  /-- FDIVd, R576. -/
  | fdivd (rd rs1 rs2 : Reg)
  /-- FsMULd, R572. -/
  | fsmuld (rd rs1 rs2 : Reg)
  /-- FiTOs, R582. -/
  | fitos (rd rs2 : Reg)
  /-- FdTOs, R589. -/
  | fdtos (rd rs2 : Reg)
  /-- FiTOd, R583. -/
  | fitod (rd rs2 : Reg)
  /-- FsTOd, R588. -/
  | fstod (rd rs2 : Reg)
  /-- FsTOi, R585. -/
  | fstoi (rd rs2 : Reg)
  /-- FdTOi, R586. -/
  | fdtoi (rd rs2 : Reg)
  /-- FSQRTq, R602. -/
  | fsqrtq (rd rs2 : Reg)
  /-- FADDq, R598. -/
  | faddq (rd rs1 rs2 : Reg)
  /-- FSUBq, R599. -/
  | fsubq (rd rs1 rs2 : Reg)
  /-- FMULq, R600. -/
  | fmulq (rd rs1 rs2 : Reg)
  /-- FDIVq, R601. -/
  | fdivq (rd rs1 rs2 : Reg)
  /-- FdMULq, R603. -/
  | fdmulq (rd rs1 rs2 : Reg)
  /-- FqTOs, R608. -/
  | fqtos (rd rs2 : Reg)
  /-- FqTOd, R609. -/
  | fqtod (rd rs2 : Reg)
  /-- FiTOq, R604. -/
  | fitoq (rd rs2 : Reg)
  /-- FsTOq, R605. -/
  | fstoq (rd rs2 : Reg)
  /-- FdTOq, R606. -/
  | fdtoq (rd rs2 : Reg)
  /-- FqTOi, R607. -/
  | fqtoi (rd rs2 : Reg)
  /-- FCMPs, R592. -/
  | fcmps (rs1 rs2 : Reg)
  /-- FCMPd, R593. -/
  | fcmpd (rs1 rs2 : Reg)
  /-- FCMPEs, R594. -/
  | fcmpes (rs1 rs2 : Reg)
  /-- FCMPEd, R595. -/
  | fcmped (rs1 rs2 : Reg)
  /-- FCMPq, R610. -/
  | fcmpq (rs1 rs2 : Reg)
  /-- FCMPEq, R611. -/
  | fcmpeq (rs1 rs2 : Reg)
  /-- FPop1__other_opf, R613. -/
  | fpop1Other (rd rs1 : Reg) (opf : BitVec 9) (rs2 : Reg)
  /-- FPop2__other_opf, R613. -/
  | fpop2Other (rd rs1 : Reg) (opf : BitVec 9) (rs2 : Reg)
  /-- CPop1, R463. -/
  | cpop1 (rd rs1 : Reg) (opc : BitVec 9) (rs2 : Reg)
  /-- CPop2, R463. -/
  | cpop2 (rd rs1 : Reg) (opc : BitVec 9) (rs2 : Reg)
  /-- JMPL, R470. -/
  | jmpl (rd rs1 : Reg) (o : Opnd2)
  /-- RETT, R472. -/
  | rett (rs1 : Reg) (o : Opnd2)
  /-- TN, R486. -/
  | tn (rs1 : Reg) (n : TrapNum)
  /-- TE, R487. -/
  | te (rs1 : Reg) (n : TrapNum)
  /-- TLE, R488. -/
  | tle (rs1 : Reg) (n : TrapNum)
  /-- TL, R489. -/
  | tl (rs1 : Reg) (n : TrapNum)
  /-- TLEU, R490. -/
  | tleu (rs1 : Reg) (n : TrapNum)
  /-- TCS, R491. -/
  | tcs (rs1 : Reg) (n : TrapNum)
  /-- TNEG, R492. -/
  | tneg (rs1 : Reg) (n : TrapNum)
  /-- TVS, R493. -/
  | tvs (rs1 : Reg) (n : TrapNum)
  /-- TA, R494. -/
  | ta (rs1 : Reg) (n : TrapNum)
  /-- TNE, R495. -/
  | tne (rs1 : Reg) (n : TrapNum)
  /-- TG, R496. -/
  | tg (rs1 : Reg) (n : TrapNum)
  /-- TGE, R497. -/
  | tge (rs1 : Reg) (n : TrapNum)
  /-- TGU, R498. -/
  | tgu (rs1 : Reg) (n : TrapNum)
  /-- TCC, R499. -/
  | tcc (rs1 : Reg) (n : TrapNum)
  /-- TPOS, R500. -/
  | tpos (rs1 : Reg) (n : TrapNum)
  /-- TVC, R501. -/
  | tvc (rs1 : Reg) (n : TrapNum)
  /-- FLUSH, R540. -/
  | flush (rs1 : Reg) (o : Opnd2)
  /-- SAVE, R480. -/
  | save (rd rs1 : Reg) (o : Opnd2)
  /-- RESTORE, R481. -/
  | restore (rd rs1 : Reg) (o : Opnd2)
  /-- LD, R376. -/
  | ld (rd rs1 : Reg) (o : Opnd2)
  /-- LDUB, R374. -/
  | ldub (rd rs1 : Reg) (o : Opnd2)
  /-- LDUH, R375. -/
  | lduh (rd rs1 : Reg) (o : Opnd2)
  /-- LDD, R377. -/
  | ldd (rd rs1 : Reg) (o : Opnd2)
  /-- ST, R387. -/
  | st (rd rs1 : Reg) (o : Opnd2)
  /-- STB, R385. -/
  | stb (rd rs1 : Reg) (o : Opnd2)
  /-- STH, R386. -/
  | sth (rd rs1 : Reg) (o : Opnd2)
  /-- STD, R388. -/
  | std (rd rs1 : Reg) (o : Opnd2)
  /-- LDSB, R372. -/
  | ldsb (rd rs1 : Reg) (o : Opnd2)
  /-- LDSH, R373. -/
  | ldsh (rd rs1 : Reg) (o : Opnd2)
  /-- LDSTUB, R410. -/
  | ldstub (rd rs1 : Reg) (o : Opnd2)
  /-- SWAP, R412. -/
  | swap (rd rs1 : Reg) (o : Opnd2)
  /-- LDA, R382. -/
  | lda (rd rs1 : Reg) (i : Bool) (asi : Asi) (rs2 : Reg)
  /-- LDUBA, R380. -/
  | lduba (rd rs1 : Reg) (i : Bool) (asi : Asi) (rs2 : Reg)
  /-- LDUHA, R381. -/
  | lduha (rd rs1 : Reg) (i : Bool) (asi : Asi) (rs2 : Reg)
  /-- LDDA, R383. -/
  | ldda (rd rs1 : Reg) (i : Bool) (asi : Asi) (rs2 : Reg)
  /-- STA, R391. -/
  | sta (rd rs1 : Reg) (i : Bool) (asi : Asi) (rs2 : Reg)
  /-- STBA, R389. -/
  | stba (rd rs1 : Reg) (i : Bool) (asi : Asi) (rs2 : Reg)
  /-- STHA, R390. -/
  | stha (rd rs1 : Reg) (i : Bool) (asi : Asi) (rs2 : Reg)
  /-- STDA, R392. -/
  | stda (rd rs1 : Reg) (i : Bool) (asi : Asi) (rs2 : Reg)
  /-- LDSBA, R378. -/
  | ldsba (rd rs1 : Reg) (i : Bool) (asi : Asi) (rs2 : Reg)
  /-- LDSHA, R379. -/
  | ldsha (rd rs1 : Reg) (i : Bool) (asi : Asi) (rs2 : Reg)
  /-- LDSTUBA, R411. -/
  | ldstuba (rd rs1 : Reg) (i : Bool) (asi : Asi) (rs2 : Reg)
  /-- SWAPA, R413. -/
  | swapa (rd rs1 : Reg) (i : Bool) (asi : Asi) (rs2 : Reg)
  /-- LDF, R395. -/
  | ldf (rd rs1 : Reg) (o : Opnd2)
  /-- LDFSR, R397. -/
  | ldfsr (rd rs1 : Reg) (o : Opnd2)
  /-- LDDF, R396. -/
  | lddf (rd rs1 : Reg) (o : Opnd2)
  /-- STF, R400. -/
  | stf (rd rs1 : Reg) (o : Opnd2)
  /-- STFSR, R402. -/
  | stfsr (rd rs1 : Reg) (o : Opnd2)
  /-- STDFQ, R403. -/
  | stdfq (rd rs1 : Reg) (o : Opnd2)
  /-- STDF, R401. -/
  | stdf (rd rs1 : Reg) (o : Opnd2)
  /-- LDC, R420. -/
  | ldc (rd rs1 : Reg) (o : Opnd2)
  /-- LDCSR, R422. -/
  | ldcsr (rd rs1 : Reg) (o : Opnd2)
  /-- LDDC, R421. -/
  | lddc (rd rs1 : Reg) (o : Opnd2)
  /-- STC, R423. -/
  | stc (rd rs1 : Reg) (o : Opnd2)
  /-- STCSR, R425. -/
  | stcsr (rd rs1 : Reg) (o : Opnd2)
  /-- STDCQ, R426. -/
  | stdcq (rd rs1 : Reg) (o : Opnd2)
  /-- STDC, R424. -/
  | stdc (rd rs1 : Reg) (o : Opnd2)
deriving DecidableEq, Repr

end Sys2Proof
end

