-- ==== Sys2Proof/Machine/Operands.lean ====
section
/-! DEFINITION. The operand forms of the instructions (R238, R301, R370, R441, R465, R485). -/

namespace Sys2Proof.Machine

/-- `opnd2`: `x[rs2]`, or `simm13` sign-extended (R238). -/
def opnd2 (o : Opnd2) (s : State) : Word :=
  match o with
  | .reg rs2 => readReg rs2 s
  | .imm simm13 => simm13.signExtend 32

/-- The count of a shift: the low five bits of `x[rs2]`, or `shcnt` (R301). -/
def shiftCount (n : ShCount) (s : State) : Nat :=
  match n with
  | .reg rs2 => ((readReg rs2 s).extractLsb' 0 5).toNat
  | .cnt shcnt => shcnt.toNat

/-- `(x[rs1] + opnd2)[6:0]`, of which a Ticc makes its trap type (R485). -/
def trapNumber (rs1 : Reg) (n : TrapNum) (s : State) : BitVec 7 :=
  match n with
  | .reg rs2 => (readReg rs1 s + readReg rs2 s).extractLsb' 0 7
  | .imm imm7 => (readReg rs1 s).extractLsb' 0 7 + imm7

/-- The effective address of a load, store, JMPL or RETT: `x[rs1] + opnd2` (R370). -/
def address (rs1 : Reg) (o : Opnd2) (s : State) : Word := readReg rs1 s + opnd2 o s

/-- The effective address of an alternate-space form: `x[rs1] + x[rs2]` (R370). -/
def altAddress (rs1 rs2 : Reg) (s : State) : Word := readReg rs1 s + readReg rs2 s

/-- What a WR instruction writes: `x[rs1] xor opnd2` (R528). -/
def writeValue (rs1 : Reg) (o : Opnd2) (s : State) : Word := readReg rs1 s ^^^ opnd2 o s

/-- `pc + (sext(disp22) << 2)` (R441). -/
def branchTarget (disp22 : BitVec 22) (s : State) : Word := s.pc + (disp22.signExtend 32) <<< 2

/-- `pc + (disp30 << 2)` (R465). -/
def callTarget (disp30 : BitVec 30) (s : State) : Word := s.pc + (disp30 ++ 0#2)

end Sys2Proof.Machine
end

