-- ==== Sys2Proof/Machine/Breakpoint.lean ====
section
/-! DEFINITION. The breakpoints of the monitor and the fields of ACTION (10_state.md R77, R78, R83;
46_cache_diag_and_monitor_asi.md R725; 60_exceptions.md R784, R810 to R812). R725 and R810 advise a model to refuse an
armed breakpoint; R726 lets one go further, as here; what the source leaves open is free (log 49). -/

namespace Sys2Proof.Machine

/-! ## ACTION (R83, R738) -/

/-- I_CBK, bit 3 of ACTION. -/
def intC (action : BitVec 13) : Bool := action.getLsbD 3
/-- I_ZAC, bit 2 of ACTION. -/
def intA (action : BitVec 13) : Bool := action.getLsbD 2
/-- I_DBK, bit 1 of ACTION. -/
def intD (action : BitVec 13) : Bool := action.getLsbD 1
/-- I_ZBC, bit 0 of ACTION. -/
def intB (action : BitVec 13) : Bool := action.getLsbD 0
/-- BCIPL, bits 11:8 of ACTION. -/
def bcipl (action : BitVec 13) : BitVec 4 := action.extractLsb' 8 4
/-- An event becomes pending: at BCIPL = 0 it is lost (R784). -/
def live (action : BitVec 13) : Bool := bcipl action != 0

/-! ## Matching (R725, R811) -/

/-- The virtual address equals BKV in every bit position that BKM lets count; the sense of the mask is not known
(N24). -/
def breakMatch (a : Word) (m : Monitor) : Bool :=
  (a ^^^ m.bkv) &&& (if Config.breakMaskCompares then m.bkm else ~~~m.bkm) == 0

/-- CBKEN is set and the breakpoint is on the instruction at pc, in an address space that CSPACE selects. -/
def codeBreak (s : State) : Bool :=
  s.mon.bkc.getLsbD 3 && Config.codeSpaceWatched (s.mon.bkc.getLsbD 6) s.psr.s && breakMatch s.pc s.mon

/-- DBREN or DBWEN is set for the access and the breakpoint is on its address. -/
def dataBreak (isStore : Bool) (a : Word) (s : State) : Bool :=
  s.mon.bkc.getLsbD (if isStore then 0 else 1) && breakMatch a s.mon

/-- CBFEN: a match of the code breakpoint is a fault. -/
def codeFaults (s : State) : Bool := s.mon.bkc.getLsbD 4
/-- DBFEN: a match of the data breakpoint is a fault. -/
def dataFaults (s : State) : Bool := s.mon.bkc.getLsbD 2

/-- A match of the code breakpoint that is no fault requests the monitor's interrupt (R784, R810). -/
def requestCode (s : State) : State :=
  { s with mon := { s.mon with pendC := s.mon.pendC || (intC s.mon.action && live s.mon.action) } }

/-- A match of the data breakpoint that is no fault requests the monitor's interrupt (R784, R810). -/
def requestData (s : State) : State :=
  { s with mon := { s.mon with pendD := s.mon.pendD || (intD s.mon.action && live s.mon.action) } }

end Sys2Proof.Machine
end

