-- ==== Sys2Proof/Machine/Mmu.lean ====
section
/-! DEFINITION. The SPARC Reference MMU: TLB lookup, table walk, permissions, fault recording (20_memory.md, R170 to
R183). -/

namespace Sys2Proof.Machine

/-- What an access wants of a page (R177). -/
inductive Access where
  | load
  | store
  | execute
deriving DecidableEq, Repr

/-- An access to be translated. `instr` and `user` tell the four spaces 0x08 to 0x0B apart (R132). -/
structure Request where
  va : Word
  kind : Access
  instr : Bool
  user : Bool
deriving DecidableEq, Repr

/-- Where an access goes, and the RBO bit of the entry that says so (R144). -/
structure Target where
  pa : PAddr
  rbo : Bool
deriving DecidableEq, Repr

/-- How a translation ends. A fault carries FT and L of R60. -/
inductive Xlat where
  | ok (t : Target) (s : State)
  | mmuFault (ftype : BitVec 3) (level : BitVec 2) (s : State)
  | deadlock

/-! ## Entries of the tables and of the TLBs -/

/-- ET of a table entry (R174). -/
def entryType (e : Word) : BitVec 2 := e.extractLsb' 0 2
/-- The entry is a page table pointer. -/
def isPtp (e : Word) : Bool := entryType e == 1
/-- The entry is a page table entry. -/
def isPte (e : Word) : Bool := entryType e == 2 || entryType e == 3
/-- ACC of a PTE (R173). -/
def pteAcc (e : Word) : BitVec 3 := e.extractLsb' 2 3

/-- R181: the virtual tag equals the address above the page size of the level. -/
def tagMatches (level : BitVec 2) (vtag : BitVec 20) (va : Word) : Bool :=
  if level = 3 then vtag == va.extractLsb' 12 20
  else if level = 2 then vtag.extractLsb' 6 14 == va.extractLsb' 18 14
  else if level = 1 then vtag.extractLsb' 12 8 == va.extractLsb' 24 8
  else true

/-- R181: the entry translates the address in this context. -/
def tlbMatches (ctx : Word) (va : Word) (e : TlbEntry) : Bool :=
  e.v && tagMatches e.level e.vtag va &&
    (e.ctx == ctx || (decide (6 ≤ e.acc.toNat) && Config.supervisorPagesMatchAnyContext))

/-- R175: the physical address, by the level of the PTE. -/
def physical (level : BitVec 2) (ppn : BitVec 24) (va : Word) : PAddr :=
  if level = 3 then ppn ++ va.extractLsb' 0 12
  else if level = 2 then ppn.extractLsb' 6 18 ++ va.extractLsb' 0 18
  else if level = 1 then ppn.extractLsb' 12 12 ++ va.extractLsb' 0 24
  else ppn.extractLsb' 20 4 ++ va

/-- R177: the page permits the access. -/
def permits (acc : BitVec 3) (user : Bool) (kind : Access) : Bool :=
  match acc.toNat, kind with
  | 0, .load => true
  | 1, .load => true
  | 1, .store => true
  | 2, .load => true
  | 2, .execute => true
  | 3, _ => true
  | 4, .execute => true
  | 5, .load => true
  | 5, .store => !user
  | 6, .load => !user
  | 6, .execute => !user
  | 7, _ => !user
  | _, _ => false

/-- FT of an access the page does not permit (R177): 3 is a privilege violation, 2 a protection error. -/
def denial (acc : BitVec 3) (user : Bool) : BitVec 3 := if user && decide (6 ≤ acc.toNat) then 3 else 2

/-! ## The table walk (R175, R176) -/

/-- An entry the walk has read: its level, where it stands, its word. -/
structure Fetched where
  level : BitVec 2
  addr : PAddr
  entry : Word
deriving DecidableEq, Repr

/-- Where the entry of a level stands in the table that `ptp` points to. -/
def entryAddr (level : BitVec 2) (ptp va : Word) : PAddr :=
  if level = 1 then ptp.extractLsb' 6 26 ++ va.extractLsb' 24 8 ++ 0#2
  else if level = 2 then ptp.extractLsb' 4 28 ++ va.extractLsb' 18 6 ++ 0#2
  else ptp.extractLsb' 4 28 ++ va.extractLsb' 12 6 ++ 0#2

/-- The entries read from `f` on, `f` first: while the entry is a pointer, the walk goes one level down. -/
def descend (m : List Host.Cell) (va : Word) (f : Fetched) : List (BitVec 2) → List Fetched
  | [] => [f]
  | n :: rest =>
    if isPtp f.entry then
      let a := entryAddr n f.entry va
      f :: descend m va { level := n, addr := a, entry := memWord m a } rest
    else [f]

/-- The entry of the context table (R175, level 0). -/
def rootEntry (s : State) : Fetched :=
  let a : PAddr := (s.mmu.ctp ++ 0#6) + (s.mmu.ctx.setWidth 36 <<< 2)
  { level := 0, addr := a, entry := memWord s.mem a }

/-- A cached level-2 pointer serves this address. -/
def ptp2Matches (va : Word) (p : Ptp2) : Bool := p.valid == 1 && p.tag == va.extractLsb' 18 14

/-- A cached level-2 pointer as the entry the walk would have read. -/
def ptp2Entry (p : Ptp2) : Fetched := { level := 2, addr := 0, entry := p.ptr ++ 0#2 ++ 1#2 }

/-- The cached level-2 pointers of a side that serve the address. -/
def ptp2Candidates (data : Bool) (va : Word) (s : State) : List Ptp2 :=
  (if data then s.mmu.dptp2.toList else [s.mmu.iptp2]).filter (ptp2Matches va)

/-- A walk: the entries read from memory, in order, and the last entry reached. -/
structure Walk where
  read : List Fetched
  last : Fetched
deriving DecidableEq, Repr

/-- The walk from an entry. `cached` says that the first entry comes from a pointer cache and is not read. -/
def walkFrom (m : List Host.Cell) (va : Word) (cached : Bool) (f : Fetched) (levels : List (BitVec 2)) : Walk :=
  let t := descend m va f levels
  { read := if cached then t.tail else t, last := t.getLastD f }

/-- The walk for an address, starting as low as a cached pointer allows (R176). Where several cached level-2 pointers
serve, which one is used is free. -/
def walk (data : Bool) (va : Word) (s : State) : Walk :=
  match ptp2Candidates data va s with
  | p :: rest => walkFrom s.mem va true (ptp2Entry ((p :: rest).getD (freeIndex rest.length s) p)) [3]
  | [] =>
    if s.mmu.ptp0.valid = 1 then
      walkFrom s.mem va true { level := 0, addr := 0, entry := s.mmu.ptp0.ptr ++ 0#4 ++ 1#2 } [1, 2, 3]
    else walkFrom s.mem va false (rootEntry s) [1, 2, 3]

/-- The pointer of a level among the entries read. -/
def pointerRead (level : BitVec 2) (w : Walk) : Option Word :=
  (w.read.find? fun f => f.level == level && isPtp f.entry).map Fetched.entry

/-- R70: the D_PTP2 entry to replace: the first invalid one, else any. -/
def ptp2Victim (s : State) : Fin 4 :=
  ((List.finRange 4).find? fun i => s.mmu.dptp2[i].valid != 1).getD ⟨freeIndex 3 s, Nat.mod_lt _ (by decide)⟩

/-- R176: the pointers a walk has read go into the pointer caches. -/
def cachePointers (data : Bool) (va : Word) (w : Walk) (s : State) : State :=
  let ptp0 : Ptp0 :=
    match pointerRead 0 w with
    | some e => { ptr := e.extractLsb' 6 26, valid := 1 }
    | none => s.mmu.ptp0
  match pointerRead 2 w with
  | none => { s with mmu := { s.mmu with ptp0 := ptp0 } }
  | some e =>
    let p : Ptp2 := { ptr := e.extractLsb' 4 28, valid := 1, tag := va.extractLsb' 18 14 }
    if data then
      drawn { s with mmu := { s.mmu with ptp0 := ptp0, dptp2 := s.mmu.dptp2.set (ptp2Victim s) p } }
    else { s with mmu := { s.mmu with ptp0 := ptp0, iptp2 := p } }

/-! ## Filling a TLB (R180) -/

/-- The entries of a TLB that a fill may replace: the unlocked ones (R67, D15). -/
def replaceable {n : Nat} (tlb : Vector TlbEntry n) : List (Fin n) := (List.finRange n).filter fun i => !tlb[i].lock

/-- No entry of the side's TLB may be replaced, so that a walk for it cannot complete (R876, log 5). -/
def noVictim (data : Bool) (s : State) : Bool :=
  if data then (replaceable s.mmu.dtlb).isEmpty else (replaceable s.mmu.itlb).isEmpty

/-- The entry to replace: any that may be (D15). -/
def victim {n : Nat} (tlb : Vector TlbEntry n) (s : State) : Option (Fin n) :=
  match replaceable tlb with
  | [] => none
  | [i] => some i
  | i :: j :: rest => some ((i :: j :: rest).getD (freeIndex (rest.length + 1) s) i)

/-- The entry a PTE makes (R180). The I-TLB holds neither M nor RBO (R65, R66). That the virtual tag is va[31:12] of the
access at every level, also in the bits below the page size, which no lookup at that level compares, is a DESIGN CHOICE (N16,
log 53): a Sel = 2 store that changes LVL to a smaller page makes them count (R674). -/
def entryOfPte (data : Bool) (va : Word) (level : BitVec 2) (pte : Word) (s : State) : TlbEntry where
  vtag := va.extractLsb' 12 20
  ctx := s.mmu.ctx
  ppn := pte.extractLsb' 8 24
  c := pte.getLsbD 7
  m := data && pte.getLsbD 6
  v := true
  acc := pteAcc pte
  level := level
  rbo := data && entryType pte == 3
  lock := false

/-- The state with the PTE in the TLB of its side; none if no entry may be replaced. -/
def fillTlb (data : Bool) (va : Word) (level : BitVec 2) (pte : Word) (s : State) : Option State :=
  let e := entryOfPte data va level pte s
  if data then
    (victim s.mmu.dtlb s).map fun (i : Fin 64) => drawn { s with mmu := { s.mmu with dtlb := s.mmu.dtlb.set i e } }
  else
    (victim s.mmu.itlb s).map fun (i : Fin 16) => drawn { s with mmu := { s.mmu with itlb := s.mmu.itlb.set i e } }

/-- The PTE with R set, and M for a store (R179). -/
def touched (kind : Access) (pte : Word) : Word := pte ||| 0x20 ||| (if kind = .store then 0x40 else 0)

/-- Write a PTE back if it has changed (R179). -/
def writePte (addr : PAddr) (old new : Word) (s : State) : State :=
  if old = new then s else storeBytes addr (splitBytes (new.setWidth 64) 4) s

/-- FT of the entry a walk ended at, if it is no PTE (R175): a pointer can end a walk only at level 3. -/
def walkFault (w : Walk) : Option (BitVec 3) :=
  if isPte w.last.entry then none else if isPtp w.last.entry then some 4 else some 1

/-! ## Translation -/

/-- A miss: walk, check, write R and M back, fill (R175 to R180). The check comes before any write (log 26). With every
entry locked no walk completes, whatever it would find (R876). -/
def translateMiss (data : Bool) (q : Request) (s : State) : Xlat :=
  if noVictim data s then .deadlock else
  let w := walk data q.va s
  let s1 := cachePointers data q.va w (drawn s)
  match walkFault w with
  | some ft => .mmuFault ft w.last.level s1
  | none =>
    let pte := w.last.entry
    if permits (pteAcc pte) q.user q.kind then
      let pte' := touched q.kind pte
      match fillTlb data q.va w.last.level pte' (writePte w.last.addr pte pte' s1) with
      | none => .deadlock
      | some s2 =>
        .ok { pa := physical w.last.level (pte.extractLsb' 8 24) q.va, rbo := data && entryType pte == 3 } s2
    else .mmuFault (denial (pteAcc pte) q.user) w.last.level s1

/-- A store that hits the D-TLB entry `i` with M = 0: the PTE in memory and the entry get M before the store (R179,
log 27). -/
def setModified (i : Fin 64) (q : Request) (s : State) : Xlat :=
  let e := s.mmu.dtlb[i]
  let w := walk true q.va s
  let s1 := cachePointers true q.va w (drawn s)
  match walkFault w with
  | some ft => .mmuFault ft w.last.level s1
  | none =>
    let s2 := writePte w.last.addr w.last.entry (touched .store w.last.entry) s1
    .ok { pa := physical e.level e.ppn q.va, rbo := e.rbo }
      { s2 with mmu := { s2.mmu with dtlb := s2.mmu.dtlb.set i { e with m := true } } }

/-- Two entries match, which software must not cause: where the access goes is free (R181, log 7). -/
def translateAmbiguous (q : Request) (s : State) : Xlat :=
  .ok { pa := (freeValue s).extractLsb' 0 24 ++ q.va.extractLsb' 0 12, rbo := (freeValue s).getLsbD 24 } (drawn s)

/-- A data access through the D-TLB. -/
def translateData (q : Request) (s : State) : Xlat :=
  match (List.finRange 64).filter fun i => tlbMatches s.mmu.ctx q.va s.mmu.dtlb[i] with
  | [] => translateMiss true q s
  | [i] =>
    let e := s.mmu.dtlb[i]
    if permits e.acc q.user q.kind then
      if q.kind = .store ∧ e.m = false then setModified i q s
      else .ok { pa := physical e.level e.ppn q.va, rbo := e.rbo } s
    else .mmuFault (denial e.acc q.user) e.level s
  | _ => translateAmbiguous q s

/-- An instruction fetch through the I-TLB. -/
def translateFetch (q : Request) (s : State) : Xlat :=
  match (List.finRange 16).filter fun i => tlbMatches s.mmu.ctx q.va s.mmu.itlb[i] with
  | [] => translateMiss false q s
  | [i] =>
    let e := s.mmu.itlb[i]
    if permits e.acc q.user q.kind then .ok { pa := physical e.level e.ppn q.va, rbo := false } s
    else .mmuFault (denial e.acc q.user) e.level s
  | _ => translateAmbiguous q s

/-- AT of an access (R60). -/
def accessCode (q : Request) : BitVec 3 :=
  BitVec.ofBool (q.kind == .store) ++ BitVec.ofBool q.instr ++ BitVec.ofBool (!q.user)

/-- R178: MFSR records the fault; MFAR only for a data access. What a fault leaves in bits 31:10 is free (N14, log 9). -/
def recordFault (data : Bool) (q : Request) (ftype : BitVec 3) (level : BitVec 2) (s : State) : State :=
  drawn
    { s with
      mmu :=
        { s.mmu with
          fsr :=
            { ow := s.mmu.fsr.ftype != 0, fav := data, ftype := ftype, atype := accessCode q, level := level,
              high := (freeValue s).extractLsb' 0 22 }
          far := if data then q.va else s.mmu.far } }

/-- What a breakpoint that faults records: its indication in MFSR has no known place, so FT and L are free as well (R810,
log 49). -/
def recordBreak (data : Bool) (q : Request) (s : State) : State :=
  recordFault data q ((freeValue s).extractLsb' 22 3) ((freeValue s).extractLsb' 25 2) s

/-- The page a data access goes to (R150, R170). No target: MCNTL.NF has suppressed the trap of a fault (R57, log 10). -/
def dataPage (q : Request) (s : State) : Res (Option Target) :=
  if s.mmu.cntl.en then
    match translateData q s with
    | .ok t s1 => .ok (some t) s1
    | .deadlock => .fault .tlbDeadlock
    | .mmuFault ft l s1 =>
      let s2 := recordFault true q ft l s1
      if s.mmu.cntl.nf && !(q.instr && !q.user) then .ok none s2 else .trap ttDataAccess s2
  else .ok (some { pa := 0#4 ++ q.va, rbo := false }) s

/-- Where a data access goes, if no data breakpoint stops it (R810). R788 and R810 do not say whether an access that a
breakpoint stops has been translated: that it has, and that the state of its translation stays (the D-TLB entry, the cached
pointers, R and M in the PTE in memory), is a DESIGN CHOICE (log 49). -/
def dataTarget (q : Request) (s : State) : Res (Option Target) :=
  andThen (dataPage q s) fun t s1 =>
    if dataBreak (q.kind == .store) q.va s1 then
      if dataFaults s1 then .trap ttDataAccess (recordBreak true q s1) else .ok t (requestData s1)
    else .ok t s1

/-- The page boot mode fetches from is the platform's (R166, D10, log 12). -/
def bootAddress (pc : Word) : PAddr := Config.bootPage (pc.extractLsb' 12 20) ++ pc.extractLsb' 0 12

/-- The access that fetches the instruction at `va` (R152). -/
def fetchRequest (va : Word) (s : State) : Request := { va := va, kind := .execute, instr := true, user := !s.psr.s }

/-- The page a fetch at `va` goes to (R152, R166, R170). -/
def fetchPage (va : Word) (s : State) : Res PAddr :=
  if s.mmu.cntl.en then
    match translateFetch (fetchRequest va s) s with
    | .ok t s1 => .ok t.pa s1
    | .deadlock => .fault .tlbDeadlock
    | .mmuFault ft l s1 => .trap ttInstructionAccess (recordFault false (fetchRequest va s) ft l s1)
  else .ok (if s.mmu.cntl.bt then bootAddress va else 0#4 ++ va) s

/-- Where the fetch at pc goes, if no code breakpoint stops it (R810). That a fetch which a breakpoint stops has been
translated, and that the I-TLB entry, the cached pointers and the R bit of its translation stay, is a DESIGN CHOICE (log 49;
R788 and R810 do not say). Only the word at pc is translated: that a word which
is prefetched and never executes walks no table, fills no entry and sets no R is a DESIGN CHOICE (R444, log 46). -/
def fetchTarget (s : State) : Res PAddr :=
  andThen (fetchPage s.pc s) fun pa s1 =>
    if codeBreak s1 then
      if codeFaults s1 then .trap ttInstructionAccess (recordBreak false (fetchRequest s.pc s) s1)
      else .ok pa (requestCode s1)
    else .ok pa s1

/-- The physical doublewords that FLUSH of `a` names: where a fetch and a load there would go, of which FLUSH performs
neither (R206, R540; log 4). -/
def flushedDoublewords (a : Word) (s : State) : List (BitVec 33) :=
  (match fetchPage a s with
    | .ok pa _ => [pa.extractLsb' 3 33]
    | _ => []) ++
  (match dataPage { va := a, kind := .load, instr := false, user := !s.psr.s } s with
    | .ok (some t) _ => [t.pa.extractLsb' 3 33]
    | _ => [])

/-! ## Flush and probe (ASI 0x03) -/

/-- R647: the flush of type `t` at address `a` removes the entry. -/
def flushes (t : BitVec 3) (a ctx : Word) (e : TlbEntry) : Bool :=
  let inContext := e.ctx == ctx || decide (6 ≤ e.acc.toNat)
  match t.toNat with
  | 0 => e.level == 3 && e.vtag == a.extractLsb' 12 20 && inContext
  | 1 => decide (2 ≤ e.level.toNat) && e.vtag.extractLsb' 6 14 == a.extractLsb' 18 14 && inContext
  | 2 => decide (1 ≤ e.level.toNat) && e.vtag.extractLsb' 12 8 == a.extractLsb' 24 8 && inContext
  | 3 => e.ctx == ctx && decide (e.acc.toNat ≤ 5)
  | 4 => true
  | _ => false

/-- The entry after the flush: V cleared, Lock kept (D41). -/
def flushEntry (t : BitVec 3) (a ctx : Word) (e : TlbEntry) : TlbEntry :=
  if flushes t a ctx e then { e with v := false } else e

/-- PTP0 invalid. -/
def dropPtp0 (m : Mmu) : Mmu := { m with ptp0 := { m.ptp0 with valid := 0 } }

/-- All five cached level-2 pointers invalid. -/
def dropPtp2 (m : Mmu) : Mmu :=
  { m with iptp2 := { m.iptp2 with valid := 0 }, dptp2 := mapVec (fun p : Ptp2 => { p with valid := 0 }) m.dptp2 }

/-- A store in ASI 0x03 (R646 to R652). -/
def flushMmu (a : Word) (s : State) : State :=
  let t := a.extractLsb' 8 3
  let m := s.mmu
  let m1 := { m with itlb := mapVec (flushEntry t a m.ctx) m.itlb, dtlb := mapVec (flushEntry t a m.ctx) m.dtlb }
  let m2 := if t = 1 ∨ t = 2 then dropPtp2 m1 else if t = 3 ∨ t = 4 then dropPtp0 (dropPtp2 m1) else m1
  { s with mmu := m2 }

/-- The walk of a probe: from the context table, down to level `k` (R654). -/
def probeWalk (k : Nat) (va : Word) (s : State) : Walk :=
  walkFrom s.mem va false (rootEntry s) (([1, 2, 3] : List (BitVec 2)).take k)

/-- What a probe of type `t` returns, for types 0 to 4 (R654). -/
def probeValue (t : BitVec 3) (va : Word) (s : State) : Word :=
  if t = 4 then
    let f := (probeWalk 3 va s).last
    if isPte f.entry then f.entry else 0
  else
    let k := 3 - t.toNat
    let f := (probeWalk k va s).last
    if f.level.toNat = k ∧ (isPte f.entry = true ∨ (isPtp f.entry = true ∧ k ≠ 3)) then f.entry else 0

/-- A type-4 probe may load what it found as a missing load of the supervisor would: a PTE that permits the load, with the
pointers that load's own walk would read, when no entry matches and one may be replaced (R655, D7, log 25). -/
def probeFill (va : Word) (s : State) : State :=
  let f := (probeWalk 3 va s).last
  let missing := !s.mmu.dtlb.toList.any (tlbMatches s.mmu.ctx va)
  if isPte f.entry && permits (pteAcc f.entry) false .load && missing && Config.probe4Fills then
    (fillTlb true va f.level f.entry (cachePointers true va (walk true va s) (drawn s))).getD s
  else s

/-- A load in ASI 0x03 (R654 to R656). That the trap of type 5 to 7 records nothing in MFSR and MFAR is a DESIGN CHOICE
(N14, log 23). -/
def probeMmu (a : Word) (s : State) : Res Word :=
  let t := a.extractLsb' 8 3
  if 5 ≤ t.toNat then .trap ttDataAccess s
  else .ok (probeValue t a s) (if t = 4 then probeFill a s else s)

end Sys2Proof.Machine
end

