-- ==== Sys2Proof/Machine/StateRegs.lean ====
section
/-! DEFINITION. The instructions that read and write the state registers, STBAR, FLUSH and UNIMP
(43_state_register_and_system.md). -/

namespace Sys2Proof.Machine

/-- A privileged instruction: in user mode it traps (R765). -/
def privileged (s : State) (body : Result) : Result :=
  if s.psr.s = false then .next (takeTrap ttPrivileged s) else body

/-- RDY, R520. -/
def execRdy (rd : Reg) (s : State) : Result := .next (advance (writeReg rd s.y s))
/-- STBAR, R525: it orders stores, which one processor performs at once (log 21). -/
def execStbar (s : State) : Result := .next (advance s)
/-- RDASR, R521: no ancillary state register exists, whatever the fields R521 does not use hold (D23). -/
def execRdasr (_d : DestOpnd) (_rs1 : Reg) (s : State) : Result := .next (takeTrap ttIllegal s)
/-- RDPSR, R522. -/
def execRdpsr (rd : Reg) (s : State) : Result := privileged s (.next (advance (writeReg rd (psrWord s.psr) s)))
/-- RDWIM, R523: the second operand field is not used. -/
def execRdwim (d : DestOpnd) (s : State) : Result := privileged s (.next (advance (writeReg d.rd (s.wim.setWidth 32) s)))
/-- RDTBR, R524: the second operand field is not used. -/
def execRdtbr (d : DestOpnd) (s : State) : Result := privileged s (.next (advance (writeReg d.rd (tbrWord s.tbr) s)))
/-- WRY, R529. -/
def execWry (rs1 : Reg) (o : Opnd2) (s : State) : Result := .next (advance { s with y := writeValue rs1 o s })
/-- WRASR, R530 (D23). -/
def execWrasr (_rd _rs1 : Reg) (_o : Opnd2) (s : State) : Result := .next (takeTrap ttIllegal s)
/-- WRPSR, R531: a window that does not exist is illegal; otherwise every field is written at once. -/
def execWrpsr (rs1 : Reg) (o : Opnd2) (s : State) : Result :=
  privileged s
    (if 8 ≤ ((writeValue rs1 o s).extractLsb' 0 5).toNat then .next (takeTrap ttIllegal s)
     else .next (advance { s with psr := psrOfWord (writeValue rs1 o s) }))
/-- WRWIM, R533. -/
def execWrwim (rs1 : Reg) (o : Opnd2) (s : State) : Result :=
  privileged s (.next (advance { s with wim := (writeValue rs1 o s).extractLsb' 0 8 }))
/-- WRTBR, R534: tt is kept. -/
def execWrtbr (rs1 : Reg) (o : Opnd2) (s : State) : Result :=
  privileged s (.next (advance { s with tbr := { s.tbr with tba := (writeValue rs1 o s).extractLsb' 12 20 } }))
/-- The replaced words a fetch may still see once FLUSH has named the virtual doubleword `line` and the physical doublewords
`pas`: none of `pas` at any address (R206), the others not at `line` (R540). -/
def flushStale (line : BitVec 29) (pas : List (BitVec 33)) (list : List Stale) : List Stale :=
  (list.filter fun e => !pas.contains (e.pa.extractLsb' 1 33)).map fun e => { e with cleared := line :: e.cleared }

/-- FLUSH, R540: fetches from the doubleword see the latest stores (D24). A free value is used up: where the address goes
can depend on one. -/
def execFlush (rs1 : Reg) (o : Opnd2) (s : State) : Result :=
  let a := address rs1 o s
  .next (advance (drawn { s with stale := flushStale (a.extractLsb' 3 29) (flushedDoublewords a s) s.stale }))
/-- UNIMP, R541. That a word with a 1 in bits 29:25, which R541 calls reserved and D13 advises to refuse, traps as any other
does is a DESIGN CHOICE (log 51). -/
def execUnimp (_rd : BitVec 5) (_const22 : BitVec 22) (s : State) : Result := .next (takeTrap ttIllegal s)

end Sys2Proof.Machine
end

