-- ==== Sys2Proof/Machine/Control.lean ====
section
/-! DEFINITION. Branches on integer condition codes, CALL, JMPL, RETT, register windows, traps on condition codes and
the coprocessor rows (42_control_transfer_and_windows.md, 41_load_store.md section 6). -/

namespace Sys2Proof.Machine

/-! ## Branches (R441) -/

/-- A branch that is taken or not: the delay instruction is annulled when it is not taken and `a` is 1. -/
def branchIf (taken a : Bool) (disp22 : BitVec 22) (s : State) : State :=
  if taken then jump true (branchTarget disp22 s) s
  else if a then { s with pc := s.npc + 4, npc := s.npc + 8, condTaken := false }
  else advance s

/-- Branch always: `a` = 1 annuls the delay instruction. -/
def branchAlways (a : Bool) (disp22 : BitVec 22) (s : State) : State :=
  if a then transfer false (branchTarget disp22 s) (branchTarget disp22 s + 4) s
  else jump false (branchTarget disp22 s) s

/-- BN, R445. -/
def execBn (a : Bool) (disp22 : BitVec 22) (s : State) : Result := .next (branchIf false a disp22 s)
/-- BE, R446. -/
def execBe (a : Bool) (disp22 : BitVec 22) (s : State) : Result := .next (branchIf (testE s.psr) a disp22 s)
/-- BLE, R447. -/
def execBle (a : Bool) (disp22 : BitVec 22) (s : State) : Result := .next (branchIf (testLe s.psr) a disp22 s)
/-- BL, R448. -/
def execBl (a : Bool) (disp22 : BitVec 22) (s : State) : Result := .next (branchIf (testL s.psr) a disp22 s)
/-- BLEU, R449. -/
def execBleu (a : Bool) (disp22 : BitVec 22) (s : State) : Result := .next (branchIf (testLeu s.psr) a disp22 s)
/-- BCS, R450. -/
def execBcs (a : Bool) (disp22 : BitVec 22) (s : State) : Result := .next (branchIf (testCs s.psr) a disp22 s)
/-- BNEG, R451. -/
def execBneg (a : Bool) (disp22 : BitVec 22) (s : State) : Result := .next (branchIf (testNeg s.psr) a disp22 s)
/-- BVS, R452. -/
def execBvs (a : Bool) (disp22 : BitVec 22) (s : State) : Result := .next (branchIf (testVs s.psr) a disp22 s)
/-- BA, R453. -/
def execBa (a : Bool) (disp22 : BitVec 22) (s : State) : Result := .next (branchAlways a disp22 s)
/-- BNE, R454. -/
def execBne (a : Bool) (disp22 : BitVec 22) (s : State) : Result := .next (branchIf (testNe s.psr) a disp22 s)
/-- BG, R455. -/
def execBg (a : Bool) (disp22 : BitVec 22) (s : State) : Result := .next (branchIf (testG s.psr) a disp22 s)
/-- BGE, R456. -/
def execBge (a : Bool) (disp22 : BitVec 22) (s : State) : Result := .next (branchIf (testGe s.psr) a disp22 s)
/-- BGU, R457. -/
def execBgu (a : Bool) (disp22 : BitVec 22) (s : State) : Result := .next (branchIf (testGu s.psr) a disp22 s)
/-- BCC, R458. -/
def execBcc (a : Bool) (disp22 : BitVec 22) (s : State) : Result := .next (branchIf (testCc s.psr) a disp22 s)
/-- BPOS, R459. -/
def execBpos (a : Bool) (disp22 : BitVec 22) (s : State) : Result := .next (branchIf (testPos s.psr) a disp22 s)
/-- BVC, R460. -/
def execBvc (a : Bool) (disp22 : BitVec 22) (s : State) : Result := .next (branchIf (testVc s.psr) a disp22 s)

/-! ## CALL, JMPL, RETT -/

/-- CALL, R465. -/
def execCall (disp30 : BitVec 30) (s : State) : Result :=
  .next (jump false (callTarget disp30 s) (writeReg 15 s.pc s))
/-- JMPL, R470: the target is computed before `x[rd]` is written. -/
def execJmpl (rd rs1 : Reg) (o : Opnd2) (s : State) : Result :=
  if (address rs1 o s).extractLsb' 0 2 ≠ 0 then .next (takeTrap ttNotAligned s)
  else .next (jump false (address rs1 o s) (writeReg rd s.pc s))
/-- RETT, R472: the checks in their order; with ET = 0 each of them leads to error mode, which `takeTrap` enters. -/
def execRett (rs1 : Reg) (o : Opnd2) (s : State) : Result :=
  if s.psr.s = false then .next (takeTrap ttPrivileged s)
  else if s.psr.et then .next (takeTrap ttIllegal s)
  else if s.wim.getLsbD (s.psr.cwp + 1).toNat then .next (takeTrap ttWindowUnderflow s)
  else if (address rs1 o s).extractLsb' 0 2 ≠ 0 then .next (takeTrap ttNotAligned s)
  else .next (returnFromTrap (address rs1 o s) s)

/-! ## Register windows (R480, R481) -/

/-- SAVE and RESTORE: to window `w`, unless WIM forbids it; the sum is read in the old window and written in the new
one. -/
def moveWindow (w : BitVec 3) (tt : TrapType) (rd rs1 : Reg) (o : Opnd2) (s : State) : Result :=
  if s.wim.getLsbD w.toNat then .next (takeTrap tt s)
  else .next (advance (writeReg rd (address rs1 o s) { s with psr := { s.psr with cwp := w } }))

/-- SAVE, R480. -/
def execSave (rd rs1 : Reg) (o : Opnd2) (s : State) : Result :=
  moveWindow (s.psr.cwp - 1) ttWindowOverflow rd rs1 o s
/-- RESTORE, R481. -/
def execRestore (rd rs1 : Reg) (o : Opnd2) (s : State) : Result :=
  moveWindow (s.psr.cwp + 1) ttWindowUnderflow rd rs1 o s

/-! ## Ticc (R485) -/

/-- Trap `0x80 + n` if the condition holds. -/
def trapIf (taken : Bool) (rs1 : Reg) (n : TrapNum) (s : State) : Result :=
  if taken then .next (takeTrap (1#1 ++ trapNumber rs1 n s) s) else .next (advance s)

/-- TN, R486. -/
def execTn (rs1 : Reg) (n : TrapNum) (s : State) : Result := trapIf false rs1 n s
/-- TE, R487. -/
def execTe (rs1 : Reg) (n : TrapNum) (s : State) : Result := trapIf (testE s.psr) rs1 n s
/-- TLE, R488. -/
def execTle (rs1 : Reg) (n : TrapNum) (s : State) : Result := trapIf (testLe s.psr) rs1 n s
/-- TL, R489. -/
def execTl (rs1 : Reg) (n : TrapNum) (s : State) : Result := trapIf (testL s.psr) rs1 n s
/-- TLEU, R490. -/
def execTleu (rs1 : Reg) (n : TrapNum) (s : State) : Result := trapIf (testLeu s.psr) rs1 n s
/-- TCS, R491. -/
def execTcs (rs1 : Reg) (n : TrapNum) (s : State) : Result := trapIf (testCs s.psr) rs1 n s
/-- TNEG, R492. -/
def execTneg (rs1 : Reg) (n : TrapNum) (s : State) : Result := trapIf (testNeg s.psr) rs1 n s
/-- TVS, R493. -/
def execTvs (rs1 : Reg) (n : TrapNum) (s : State) : Result := trapIf (testVs s.psr) rs1 n s
/-- TA, R494. -/
def execTa (rs1 : Reg) (n : TrapNum) (s : State) : Result := trapIf true rs1 n s
/-- TNE, R495. -/
def execTne (rs1 : Reg) (n : TrapNum) (s : State) : Result := trapIf (testNe s.psr) rs1 n s
/-- TG, R496. -/
def execTg (rs1 : Reg) (n : TrapNum) (s : State) : Result := trapIf (testG s.psr) rs1 n s
/-- TGE, R497. -/
def execTge (rs1 : Reg) (n : TrapNum) (s : State) : Result := trapIf (testGe s.psr) rs1 n s
/-- TGU, R498. -/
def execTgu (rs1 : Reg) (n : TrapNum) (s : State) : Result := trapIf (testGu s.psr) rs1 n s
/-- TCC, R499. -/
def execTcc (rs1 : Reg) (n : TrapNum) (s : State) : Result := trapIf (testCc s.psr) rs1 n s
/-- TPOS, R500. -/
def execTpos (rs1 : Reg) (n : TrapNum) (s : State) : Result := trapIf (testPos s.psr) rs1 n s
/-- TVC, R501. -/
def execTvc (rs1 : Reg) (n : TrapNum) (s : State) : Result := trapIf (testVc s.psr) rs1 n s

/-! ## Coprocessor instructions: none exists (R462, R463, R420 to R426, D22) -/

/-- The trap of every coprocessor instruction. -/
def coprocessorTrap (s : State) : Result := .next (takeTrap ttCpDisabled s)

/-- CBN, R462. -/
def execCbn (_a : Bool) (_disp22 : BitVec 22) (s : State) : Result := coprocessorTrap s
/-- CB123, R462. -/
def execCb123 (_a : Bool) (_disp22 : BitVec 22) (s : State) : Result := coprocessorTrap s
/-- CB12, R462. -/
def execCb12 (_a : Bool) (_disp22 : BitVec 22) (s : State) : Result := coprocessorTrap s
/-- CB13, R462. -/
def execCb13 (_a : Bool) (_disp22 : BitVec 22) (s : State) : Result := coprocessorTrap s
/-- CB1, R462. -/
def execCb1 (_a : Bool) (_disp22 : BitVec 22) (s : State) : Result := coprocessorTrap s
/-- CB23, R462. -/
def execCb23 (_a : Bool) (_disp22 : BitVec 22) (s : State) : Result := coprocessorTrap s
/-- CB2, R462. -/
def execCb2 (_a : Bool) (_disp22 : BitVec 22) (s : State) : Result := coprocessorTrap s
/-- CB3, R462. -/
def execCb3 (_a : Bool) (_disp22 : BitVec 22) (s : State) : Result := coprocessorTrap s
/-- CBA, R462. -/
def execCba (_a : Bool) (_disp22 : BitVec 22) (s : State) : Result := coprocessorTrap s
/-- CB0, R462. -/
def execCb0 (_a : Bool) (_disp22 : BitVec 22) (s : State) : Result := coprocessorTrap s
/-- CB03, R462. -/
def execCb03 (_a : Bool) (_disp22 : BitVec 22) (s : State) : Result := coprocessorTrap s
/-- CB02, R462. -/
def execCb02 (_a : Bool) (_disp22 : BitVec 22) (s : State) : Result := coprocessorTrap s
/-- CB023, R462. -/
def execCb023 (_a : Bool) (_disp22 : BitVec 22) (s : State) : Result := coprocessorTrap s
/-- CB01, R462. -/
def execCb01 (_a : Bool) (_disp22 : BitVec 22) (s : State) : Result := coprocessorTrap s
/-- CB013, R462. -/
def execCb013 (_a : Bool) (_disp22 : BitVec 22) (s : State) : Result := coprocessorTrap s
/-- CB012, R462. -/
def execCb012 (_a : Bool) (_disp22 : BitVec 22) (s : State) : Result := coprocessorTrap s
/-- CPop1, R463. -/
def execCpop1 (_rd _rs1 : Reg) (_opc : BitVec 9) (_rs2 : Reg) (s : State) : Result := coprocessorTrap s
/-- CPop2, R463. -/
def execCpop2 (_rd _rs1 : Reg) (_opc : BitVec 9) (_rs2 : Reg) (s : State) : Result := coprocessorTrap s
/-- LDC, R420. -/
def execLdc (_rd _rs1 : Reg) (_o : Opnd2) (s : State) : Result := coprocessorTrap s
/-- LDDC, R421. -/
def execLddc (_rd _rs1 : Reg) (_o : Opnd2) (s : State) : Result := coprocessorTrap s
/-- LDCSR, R422. -/
def execLdcsr (_rd _rs1 : Reg) (_o : Opnd2) (s : State) : Result := coprocessorTrap s
/-- STC, R423. -/
def execStc (_rd _rs1 : Reg) (_o : Opnd2) (s : State) : Result := coprocessorTrap s
/-- STDC, R424. -/
def execStdc (_rd _rs1 : Reg) (_o : Opnd2) (s : State) : Result := coprocessorTrap s
/-- STCSR, R425. -/
def execStcsr (_rd _rs1 : Reg) (_o : Opnd2) (s : State) : Result := coprocessorTrap s
/-- STDCQ, R426. -/
def execStdcq (_rd _rs1 : Reg) (_o : Opnd2) (s : State) : Result := privileged s (coprocessorTrap s)

end Sys2Proof.Machine
end

