-- ==== Sys2Proof/WellFormed.lean ====
section
/-! DEFINITION. Which terms of `Instr` are instructions of the machine. The four checks are the places where one
encoding is split between two rows (R248): a term that a check refuses has the word of another row. -/

namespace Sys2Proof

/-- The `opf` values that have rows of their own in FPop1 (R242). -/
def fpop1Allocated : List (BitVec 9) :=
  [0x001, 0x005, 0x009, 0x029, 0x02A, 0x02B, 0x041, 0x042, 0x043, 0x045, 0x046, 0x047, 0x049, 0x04A, 0x04B, 0x04D,
   0x04E, 0x04F, 0x069, 0x06E, 0x0C4, 0x0C6, 0x0C7, 0x0C8, 0x0C9, 0x0CB, 0x0CC, 0x0CD, 0x0CE, 0x0D1, 0x0D2, 0x0D3]

/-- The `opf` values that have rows of their own in FPop2 (R242). -/
def fpop2Allocated : List (BitVec 9) := [0x051, 0x052, 0x053, 0x055, 0x056, 0x057]

/-- The well-formedness check of an instruction. -/
def Instr.wellFormed : Instr → Bool
  | .sethi rd imm22 => !(rd == 0 && imm22 == 0)             -- that word is NOP (R306)
  | .rdasr d rs1 => rs1 != 0 && !(rs1 == 15 && d.rd == 0)    -- those words are RDY and STBAR (R248)
  | .wrasr rd _ _ => rd != 0                                -- that word is WRY (R248)
  | .fpop1Other _ _ opf _ => !fpop1Allocated.contains opf   -- those words have rows of their own (R613)
  | .fpop2Other _ _ opf _ => !fpop2Allocated.contains opf
  | _ => true

/-- A well-formed instruction. -/
abbrev Instr.WellFormed (i : Instr) : Prop := i.wellFormed = true

end Sys2Proof
end

