-- ==== Sys2Proof/Decode.lean ====
section
/-! DEFINITION. The decoder and the encoder of an instruction word (30_encoding.md, R230 to R251). The decoder reads the
defining fields as a tree (R248) and then compares the word with the one encoding of what it read: the words that differ
have a reserved bit set (R247), and D13 has the model refuse those. -/

namespace Sys2Proof

/-- Why bytes are no instruction. The three `unallocated` cases make the processor take `illegal_instruction` (R542). -/
inductive DecodeError where
  /-- Fewer than four bytes. -/
  | truncated
  /-- `op` = 0 with `op2` = 1, 3 or 5 (R246). -/
  | unallocatedFormat2
  /-- `op` = 2 with an `op3` that R240 marks "-". -/
  | unallocatedArith
  /-- `op` = 3 with an `op3` that R241 marks "-". -/
  | unallocatedMemory
  /-- A reserved bit of an allocated encoding is 1 (R247, D13). -/
  | reservedBits
deriving DecidableEq, Repr

/-! ## Fields (R235) -/

def fieldRd (w : Word) : Reg := w.extractLsb' 25 5
def fieldRs1 (w : Word) : Reg := w.extractLsb' 14 5
def fieldRs2 (w : Word) : Reg := w.extractLsb' 0 5
def fieldI (w : Word) : Bool := w.getLsbD 13
def fieldA (w : Word) : Bool := w.getLsbD 29
def fieldAsi (w : Word) : Asi := w.extractLsb' 5 8
def fieldOpf (w : Word) : BitVec 9 := w.extractLsb' 5 9
def fieldSimm13 (w : Word) : BitVec 13 := w.extractLsb' 0 13
def fieldImm22 (w : Word) : BitVec 22 := w.extractLsb' 0 22
def fieldDisp22 (w : Word) : BitVec 22 := w.extractLsb' 0 22
def fieldDisp30 (w : Word) : BitVec 30 := w.extractLsb' 0 30
def fieldImm7 (w : Word) : BitVec 7 := w.extractLsb' 0 7
def fieldOp (w : Word) : BitVec 2 := w.extractLsb' 30 2
def fieldOp2 (w : Word) : BitVec 3 := w.extractLsb' 22 3
def fieldOp3 (w : Word) : BitVec 6 := w.extractLsb' 19 6
def fieldCond (w : Word) : BitVec 4 := w.extractLsb' 25 4

/-- R238. -/
def fieldOpnd2 (w : Word) : Opnd2 := if fieldI w then .imm (fieldSimm13 w) else .reg (fieldRs2 w)
/-- R301: with `i` = 1 the count is `shcnt`, at the place of `rs2`. -/
def fieldShCount (w : Word) : ShCount := if fieldI w then .cnt (fieldRs2 w) else .reg (fieldRs2 w)
/-- R485. -/
def fieldTrapNum (w : Word) : TrapNum := if fieldI w then .imm (fieldImm7 w) else .reg (fieldRs2 w)

/-! ## The encoder -/

/-- SETHI and UNIMP (R233). -/
def encImm22 (op2 : BitVec 3) (rd : Reg) (imm : BitVec 22) : Word := 0#2 ++ rd ++ op2 ++ imm
/-- Branches (R233). -/
def encBranch (op2 : BitVec 3) (cond : BitVec 4) (a : Bool) (disp : BitVec 22) : Word :=
  0#2 ++ BitVec.ofBool a ++ cond ++ op2 ++ disp
/-- Format 3 with `opnd2`, the `asi` field zero (R234). -/
def encF3 (op : BitVec 2) (op3 : BitVec 6) (rd rs1 : Reg) : Opnd2 → Word
  | .reg rs2 => op ++ rd ++ op3 ++ rs1 ++ 0#1 ++ 0#8 ++ rs2
  | .imm simm13 => op ++ rd ++ op3 ++ rs1 ++ 1#1 ++ simm13
/-- Format 3 shifts, bits 12:5 zero (R301). -/
def encShift (op3 : BitVec 6) (rd rs1 : Reg) : ShCount → Word
  | .reg rs2 => 2#2 ++ rd ++ op3 ++ rs1 ++ 0#1 ++ 0#8 ++ rs2
  | .cnt shcnt => 2#2 ++ rd ++ op3 ++ rs1 ++ 1#1 ++ 0#8 ++ shcnt
/-- Ticc, bit 29 and bits 12:7 or 12:5 zero (R485). -/
def encTrap (cond : BitVec 4) (rs1 : Reg) : TrapNum → Word
  | .reg rs2 => 2#2 ++ 0#1 ++ cond ++ 0x3A#6 ++ rs1 ++ 0#1 ++ 0#8 ++ rs2
  | .imm imm7 => 2#2 ++ 0#1 ++ cond ++ 0x3A#6 ++ rs1 ++ 1#1 ++ 0#6 ++ imm7
/-- FPop and CPop: `opf` covers the `i` bit (R234). -/
def encFp (op3 : BitVec 6) (rd rs1 : Reg) (opf : BitVec 9) (rs2 : Reg) : Word := 2#2 ++ rd ++ op3 ++ rs1 ++ opf ++ rs2
/-- Alternate-space loads and stores (R234, R370). -/
def encAlt (op3 : BitVec 6) (rd rs1 : Reg) (i : Bool) (asi : Asi) (rs2 : Reg) : Word :=
  3#2 ++ rd ++ op3 ++ rs1 ++ BitVec.ofBool i ++ asi ++ rs2

/-- The word of an instruction, every reserved bit zero (R231 to R245) but bits 29:25 of UNIMP, which are its `rd` (R541, log 51). -/
def encode : Instr → Word
  | .unimp rd const22 => encImm22 0 rd const22
  | .sethi rd imm22 => encImm22 4 rd imm22
  | .nop => 0x01000000
  | .bn a disp22 => encBranch 2 0 a disp22
  | .be a disp22 => encBranch 2 1 a disp22
  | .ble a disp22 => encBranch 2 2 a disp22
  | .bl a disp22 => encBranch 2 3 a disp22
  | .bleu a disp22 => encBranch 2 4 a disp22
  | .bcs a disp22 => encBranch 2 5 a disp22
  | .bneg a disp22 => encBranch 2 6 a disp22
  | .bvs a disp22 => encBranch 2 7 a disp22
  | .ba a disp22 => encBranch 2 8 a disp22
  | .bne a disp22 => encBranch 2 9 a disp22
  | .bg a disp22 => encBranch 2 10 a disp22
  | .bge a disp22 => encBranch 2 11 a disp22
  | .bgu a disp22 => encBranch 2 12 a disp22
  | .bcc a disp22 => encBranch 2 13 a disp22
  | .bpos a disp22 => encBranch 2 14 a disp22
  | .bvc a disp22 => encBranch 2 15 a disp22
  | .fbn a disp22 => encBranch 6 0 a disp22
  | .fbne a disp22 => encBranch 6 1 a disp22
  | .fblg a disp22 => encBranch 6 2 a disp22
  | .fbul a disp22 => encBranch 6 3 a disp22
  | .fbl a disp22 => encBranch 6 4 a disp22
  | .fbug a disp22 => encBranch 6 5 a disp22
  | .fbg a disp22 => encBranch 6 6 a disp22
  | .fbu a disp22 => encBranch 6 7 a disp22
  | .fba a disp22 => encBranch 6 8 a disp22
  | .fbe a disp22 => encBranch 6 9 a disp22
  | .fbue a disp22 => encBranch 6 10 a disp22
  | .fbge a disp22 => encBranch 6 11 a disp22
  | .fbuge a disp22 => encBranch 6 12 a disp22
  | .fble a disp22 => encBranch 6 13 a disp22
  | .fbule a disp22 => encBranch 6 14 a disp22
  | .fbo a disp22 => encBranch 6 15 a disp22
  | .cbn a disp22 => encBranch 7 0 a disp22
  | .cb123 a disp22 => encBranch 7 1 a disp22
  | .cb12 a disp22 => encBranch 7 2 a disp22
  | .cb13 a disp22 => encBranch 7 3 a disp22
  | .cb1 a disp22 => encBranch 7 4 a disp22
  | .cb23 a disp22 => encBranch 7 5 a disp22
  | .cb2 a disp22 => encBranch 7 6 a disp22
  | .cb3 a disp22 => encBranch 7 7 a disp22
  | .cba a disp22 => encBranch 7 8 a disp22
  | .cb0 a disp22 => encBranch 7 9 a disp22
  | .cb03 a disp22 => encBranch 7 10 a disp22
  | .cb02 a disp22 => encBranch 7 11 a disp22
  | .cb023 a disp22 => encBranch 7 12 a disp22
  | .cb01 a disp22 => encBranch 7 13 a disp22
  | .cb013 a disp22 => encBranch 7 14 a disp22
  | .cb012 a disp22 => encBranch 7 15 a disp22
  | .call disp30 => 1#2 ++ disp30
  | .add rd rs1 o => encF3 2 0x00 rd rs1 o
  | .and rd rs1 o => encF3 2 0x01 rd rs1 o
  | .or rd rs1 o => encF3 2 0x02 rd rs1 o
  | .xor rd rs1 o => encF3 2 0x03 rd rs1 o
  | .sub rd rs1 o => encF3 2 0x04 rd rs1 o
  | .andn rd rs1 o => encF3 2 0x05 rd rs1 o
  | .orn rd rs1 o => encF3 2 0x06 rd rs1 o
  | .xnor rd rs1 o => encF3 2 0x07 rd rs1 o
  | .addx rd rs1 o => encF3 2 0x08 rd rs1 o
  | .umul rd rs1 o => encF3 2 0x0A rd rs1 o
  | .smul rd rs1 o => encF3 2 0x0B rd rs1 o
  | .subx rd rs1 o => encF3 2 0x0C rd rs1 o
  | .udiv rd rs1 o => encF3 2 0x0E rd rs1 o
  | .sdiv rd rs1 o => encF3 2 0x0F rd rs1 o
  | .addcc rd rs1 o => encF3 2 0x10 rd rs1 o
  | .andcc rd rs1 o => encF3 2 0x11 rd rs1 o
  | .orcc rd rs1 o => encF3 2 0x12 rd rs1 o
  | .xorcc rd rs1 o => encF3 2 0x13 rd rs1 o
  | .subcc rd rs1 o => encF3 2 0x14 rd rs1 o
  | .andncc rd rs1 o => encF3 2 0x15 rd rs1 o
  | .orncc rd rs1 o => encF3 2 0x16 rd rs1 o
  | .xnorcc rd rs1 o => encF3 2 0x17 rd rs1 o
  | .addxcc rd rs1 o => encF3 2 0x18 rd rs1 o
  | .umulcc rd rs1 o => encF3 2 0x1A rd rs1 o
  | .smulcc rd rs1 o => encF3 2 0x1B rd rs1 o
  | .subxcc rd rs1 o => encF3 2 0x1C rd rs1 o
  | .udivcc rd rs1 o => encF3 2 0x1E rd rs1 o
  | .sdivcc rd rs1 o => encF3 2 0x1F rd rs1 o
  | .taddcc rd rs1 o => encF3 2 0x20 rd rs1 o
  | .tsubcc rd rs1 o => encF3 2 0x21 rd rs1 o
  | .taddcctv rd rs1 o => encF3 2 0x22 rd rs1 o
  | .tsubcctv rd rs1 o => encF3 2 0x23 rd rs1 o
  | .mulscc rd rs1 o => encF3 2 0x24 rd rs1 o
  | .sll rd rs1 n => encShift 0x25 rd rs1 n
  | .srl rd rs1 n => encShift 0x26 rd rs1 n
  | .sra rd rs1 n => encShift 0x27 rd rs1 n
  | .rdy rd => encF3 2 0x28 rd 0 (.reg 0)
  | .stbar => encF3 2 0x28 0 15 (.reg 0)
  | .rdasr d rs1 => encF3 2 0x28 d.rd rs1 d.opnd
  | .rdpsr rd => encF3 2 0x29 rd 0 (.reg 0)
  | .rdwim d => encF3 2 0x2A d.rd 0 d.opnd
  | .rdtbr d => encF3 2 0x2B d.rd 0 d.opnd
  | .wry rs1 o => encF3 2 0x30 0 rs1 o
  | .wrasr rd rs1 o => encF3 2 0x30 rd rs1 o
  | .wrpsr rs1 o => encF3 2 0x31 0 rs1 o
  | .wrwim rs1 o => encF3 2 0x32 0 rs1 o
  | .wrtbr rs1 o => encF3 2 0x33 0 rs1 o
  | .fmovs rd rs2 => encFp 0x34 rd 0 0x001 rs2
  | .fnegs rd rs2 => encFp 0x34 rd 0 0x005 rs2
  | .fabss rd rs2 => encFp 0x34 rd 0 0x009 rs2
  | .fsqrts rd rs2 => encFp 0x34 rd 0 0x029 rs2
  | .fsqrtd rd rs2 => encFp 0x34 rd 0 0x02A rs2
  | .fadds rd rs1 rs2 => encFp 0x34 rd rs1 0x041 rs2
  | .faddd rd rs1 rs2 => encFp 0x34 rd rs1 0x042 rs2
  | .fsubs rd rs1 rs2 => encFp 0x34 rd rs1 0x045 rs2
  | .fsubd rd rs1 rs2 => encFp 0x34 rd rs1 0x046 rs2
  | .fmuls rd rs1 rs2 => encFp 0x34 rd rs1 0x049 rs2
  | .fmuld rd rs1 rs2 => encFp 0x34 rd rs1 0x04A rs2
  | .fdivs rd rs1 rs2 => encFp 0x34 rd rs1 0x04D rs2
  | .fdivd rd rs1 rs2 => encFp 0x34 rd rs1 0x04E rs2
  | .fsmuld rd rs1 rs2 => encFp 0x34 rd rs1 0x069 rs2
  | .fitos rd rs2 => encFp 0x34 rd 0 0x0C4 rs2
  | .fdtos rd rs2 => encFp 0x34 rd 0 0x0C6 rs2
  | .fitod rd rs2 => encFp 0x34 rd 0 0x0C8 rs2
  | .fstod rd rs2 => encFp 0x34 rd 0 0x0C9 rs2
  | .fstoi rd rs2 => encFp 0x34 rd 0 0x0D1 rs2
  | .fdtoi rd rs2 => encFp 0x34 rd 0 0x0D2 rs2
  | .fsqrtq rd rs2 => encFp 0x34 rd 0 0x02B rs2
  | .faddq rd rs1 rs2 => encFp 0x34 rd rs1 0x043 rs2
  | .fsubq rd rs1 rs2 => encFp 0x34 rd rs1 0x047 rs2
  | .fmulq rd rs1 rs2 => encFp 0x34 rd rs1 0x04B rs2
  | .fdivq rd rs1 rs2 => encFp 0x34 rd rs1 0x04F rs2
  | .fdmulq rd rs1 rs2 => encFp 0x34 rd rs1 0x06E rs2
  | .fqtos rd rs2 => encFp 0x34 rd 0 0x0C7 rs2
  | .fqtod rd rs2 => encFp 0x34 rd 0 0x0CB rs2
  | .fitoq rd rs2 => encFp 0x34 rd 0 0x0CC rs2
  | .fstoq rd rs2 => encFp 0x34 rd 0 0x0CD rs2
  | .fdtoq rd rs2 => encFp 0x34 rd 0 0x0CE rs2
  | .fqtoi rd rs2 => encFp 0x34 rd 0 0x0D3 rs2
  | .fcmps rs1 rs2 => encFp 0x35 0 rs1 0x051 rs2
  | .fcmpd rs1 rs2 => encFp 0x35 0 rs1 0x052 rs2
  | .fcmpes rs1 rs2 => encFp 0x35 0 rs1 0x055 rs2
  | .fcmped rs1 rs2 => encFp 0x35 0 rs1 0x056 rs2
  | .fcmpq rs1 rs2 => encFp 0x35 0 rs1 0x053 rs2
  | .fcmpeq rs1 rs2 => encFp 0x35 0 rs1 0x057 rs2
  | .fpop1Other rd rs1 opf rs2 => encFp 0x34 rd rs1 opf rs2
  | .fpop2Other rd rs1 opf rs2 => encFp 0x35 rd rs1 opf rs2
  | .cpop1 rd rs1 opc rs2 => encFp 0x36 rd rs1 opc rs2
  | .cpop2 rd rs1 opc rs2 => encFp 0x37 rd rs1 opc rs2
  | .jmpl rd rs1 o => encF3 2 0x38 rd rs1 o
  | .rett rs1 o => encF3 2 0x39 0 rs1 o
  | .tn rs1 n => encTrap 0 rs1 n
  | .te rs1 n => encTrap 1 rs1 n
  | .tle rs1 n => encTrap 2 rs1 n
  | .tl rs1 n => encTrap 3 rs1 n
  | .tleu rs1 n => encTrap 4 rs1 n
  | .tcs rs1 n => encTrap 5 rs1 n
  | .tneg rs1 n => encTrap 6 rs1 n
  | .tvs rs1 n => encTrap 7 rs1 n
  | .ta rs1 n => encTrap 8 rs1 n
  | .tne rs1 n => encTrap 9 rs1 n
  | .tg rs1 n => encTrap 10 rs1 n
  | .tge rs1 n => encTrap 11 rs1 n
  | .tgu rs1 n => encTrap 12 rs1 n
  | .tcc rs1 n => encTrap 13 rs1 n
  | .tpos rs1 n => encTrap 14 rs1 n
  | .tvc rs1 n => encTrap 15 rs1 n
  | .flush rs1 o => encF3 2 0x3B 0 rs1 o
  | .save rd rs1 o => encF3 2 0x3C rd rs1 o
  | .restore rd rs1 o => encF3 2 0x3D rd rs1 o
  | .ld rd rs1 o => encF3 3 0x00 rd rs1 o
  | .ldub rd rs1 o => encF3 3 0x01 rd rs1 o
  | .lduh rd rs1 o => encF3 3 0x02 rd rs1 o
  | .ldd rd rs1 o => encF3 3 0x03 rd rs1 o
  | .st rd rs1 o => encF3 3 0x04 rd rs1 o
  | .stb rd rs1 o => encF3 3 0x05 rd rs1 o
  | .sth rd rs1 o => encF3 3 0x06 rd rs1 o
  | .std rd rs1 o => encF3 3 0x07 rd rs1 o
  | .ldsb rd rs1 o => encF3 3 0x09 rd rs1 o
  | .ldsh rd rs1 o => encF3 3 0x0A rd rs1 o
  | .ldstub rd rs1 o => encF3 3 0x0D rd rs1 o
  | .swap rd rs1 o => encF3 3 0x0F rd rs1 o
  | .lda rd rs1 i asi rs2 => encAlt 0x10 rd rs1 i asi rs2
  | .lduba rd rs1 i asi rs2 => encAlt 0x11 rd rs1 i asi rs2
  | .lduha rd rs1 i asi rs2 => encAlt 0x12 rd rs1 i asi rs2
  | .ldda rd rs1 i asi rs2 => encAlt 0x13 rd rs1 i asi rs2
  | .sta rd rs1 i asi rs2 => encAlt 0x14 rd rs1 i asi rs2
  | .stba rd rs1 i asi rs2 => encAlt 0x15 rd rs1 i asi rs2
  | .stha rd rs1 i asi rs2 => encAlt 0x16 rd rs1 i asi rs2
  | .stda rd rs1 i asi rs2 => encAlt 0x17 rd rs1 i asi rs2
  | .ldsba rd rs1 i asi rs2 => encAlt 0x19 rd rs1 i asi rs2
  | .ldsha rd rs1 i asi rs2 => encAlt 0x1A rd rs1 i asi rs2
  | .ldstuba rd rs1 i asi rs2 => encAlt 0x1D rd rs1 i asi rs2
  | .swapa rd rs1 i asi rs2 => encAlt 0x1F rd rs1 i asi rs2
  | .ldf rd rs1 o => encF3 3 0x20 rd rs1 o
  | .ldfsr rd rs1 o => encF3 3 0x21 rd rs1 o
  | .lddf rd rs1 o => encF3 3 0x23 rd rs1 o
  | .stf rd rs1 o => encF3 3 0x24 rd rs1 o
  | .stfsr rd rs1 o => encF3 3 0x25 rd rs1 o
  | .stdfq rd rs1 o => encF3 3 0x26 rd rs1 o
  | .stdf rd rs1 o => encF3 3 0x27 rd rs1 o
  | .ldc rd rs1 o => encF3 3 0x30 rd rs1 o
  | .ldcsr rd rs1 o => encF3 3 0x31 rd rs1 o
  | .lddc rd rs1 o => encF3 3 0x33 rd rs1 o
  | .stc rd rs1 o => encF3 3 0x34 rd rs1 o
  | .stcsr rd rs1 o => encF3 3 0x35 rd rs1 o
  | .stdcq rd rs1 o => encF3 3 0x36 rd rs1 o
  | .stdc rd rs1 o => encF3 3 0x37 rd rs1 o

/-! ## The decoder -/

/-- Bicc (R243). -/
def decodeBicc (w : Word) : Except DecodeError Instr :=
  match (fieldCond w).toNat with
  | 0x0 => .ok (.bn (fieldA w) (fieldDisp22 w))
  | 0x1 => .ok (.be (fieldA w) (fieldDisp22 w))
  | 0x2 => .ok (.ble (fieldA w) (fieldDisp22 w))
  | 0x3 => .ok (.bl (fieldA w) (fieldDisp22 w))
  | 0x4 => .ok (.bleu (fieldA w) (fieldDisp22 w))
  | 0x5 => .ok (.bcs (fieldA w) (fieldDisp22 w))
  | 0x6 => .ok (.bneg (fieldA w) (fieldDisp22 w))
  | 0x7 => .ok (.bvs (fieldA w) (fieldDisp22 w))
  | 0x8 => .ok (.ba (fieldA w) (fieldDisp22 w))
  | 0x9 => .ok (.bne (fieldA w) (fieldDisp22 w))
  | 0xA => .ok (.bg (fieldA w) (fieldDisp22 w))
  | 0xB => .ok (.bge (fieldA w) (fieldDisp22 w))
  | 0xC => .ok (.bgu (fieldA w) (fieldDisp22 w))
  | 0xD => .ok (.bcc (fieldA w) (fieldDisp22 w))
  | 0xE => .ok (.bpos (fieldA w) (fieldDisp22 w))
  | _ => .ok (.bvc (fieldA w) (fieldDisp22 w))

/-- FBfcc (R244). -/
def decodeFBfcc (w : Word) : Except DecodeError Instr :=
  match (fieldCond w).toNat with
  | 0x0 => .ok (.fbn (fieldA w) (fieldDisp22 w))
  | 0x1 => .ok (.fbne (fieldA w) (fieldDisp22 w))
  | 0x2 => .ok (.fblg (fieldA w) (fieldDisp22 w))
  | 0x3 => .ok (.fbul (fieldA w) (fieldDisp22 w))
  | 0x4 => .ok (.fbl (fieldA w) (fieldDisp22 w))
  | 0x5 => .ok (.fbug (fieldA w) (fieldDisp22 w))
  | 0x6 => .ok (.fbg (fieldA w) (fieldDisp22 w))
  | 0x7 => .ok (.fbu (fieldA w) (fieldDisp22 w))
  | 0x8 => .ok (.fba (fieldA w) (fieldDisp22 w))
  | 0x9 => .ok (.fbe (fieldA w) (fieldDisp22 w))
  | 0xA => .ok (.fbue (fieldA w) (fieldDisp22 w))
  | 0xB => .ok (.fbge (fieldA w) (fieldDisp22 w))
  | 0xC => .ok (.fbuge (fieldA w) (fieldDisp22 w))
  | 0xD => .ok (.fble (fieldA w) (fieldDisp22 w))
  | 0xE => .ok (.fbule (fieldA w) (fieldDisp22 w))
  | _ => .ok (.fbo (fieldA w) (fieldDisp22 w))

/-- CBccc (R245). -/
def decodeCBccc (w : Word) : Except DecodeError Instr :=
  match (fieldCond w).toNat with
  | 0x0 => .ok (.cbn (fieldA w) (fieldDisp22 w))
  | 0x1 => .ok (.cb123 (fieldA w) (fieldDisp22 w))
  | 0x2 => .ok (.cb12 (fieldA w) (fieldDisp22 w))
  | 0x3 => .ok (.cb13 (fieldA w) (fieldDisp22 w))
  | 0x4 => .ok (.cb1 (fieldA w) (fieldDisp22 w))
  | 0x5 => .ok (.cb23 (fieldA w) (fieldDisp22 w))
  | 0x6 => .ok (.cb2 (fieldA w) (fieldDisp22 w))
  | 0x7 => .ok (.cb3 (fieldA w) (fieldDisp22 w))
  | 0x8 => .ok (.cba (fieldA w) (fieldDisp22 w))
  | 0x9 => .ok (.cb0 (fieldA w) (fieldDisp22 w))
  | 0xA => .ok (.cb03 (fieldA w) (fieldDisp22 w))
  | 0xB => .ok (.cb02 (fieldA w) (fieldDisp22 w))
  | 0xC => .ok (.cb023 (fieldA w) (fieldDisp22 w))
  | 0xD => .ok (.cb01 (fieldA w) (fieldDisp22 w))
  | 0xE => .ok (.cb013 (fieldA w) (fieldDisp22 w))
  | _ => .ok (.cb012 (fieldA w) (fieldDisp22 w))

/-- `op` = 0 (R239). UNIMP is decoded whatever its bits 29:25, which R541 calls reserved: a DESIGN CHOICE (log 51). -/
def decodeFormat2 (w : Word) : Except DecodeError Instr :=
  match (fieldOp2 w).toNat with
  | 0 => .ok (.unimp (fieldRd w) (fieldImm22 w))
  | 2 => decodeBicc w
  | 4 => if fieldRd w = 0 ∧ fieldImm22 w = 0 then .ok .nop else .ok (.sethi (fieldRd w) (fieldImm22 w))
  | 6 => decodeFBfcc w
  | 7 => decodeCBccc w
  | _ => .error .unallocatedFormat2

/-- Ticc (R243). -/
def decodeTicc (w : Word) : Except DecodeError Instr :=
  match (fieldCond w).toNat with
  | 0x0 => .ok (.tn (fieldRs1 w) (fieldTrapNum w))
  | 0x1 => .ok (.te (fieldRs1 w) (fieldTrapNum w))
  | 0x2 => .ok (.tle (fieldRs1 w) (fieldTrapNum w))
  | 0x3 => .ok (.tl (fieldRs1 w) (fieldTrapNum w))
  | 0x4 => .ok (.tleu (fieldRs1 w) (fieldTrapNum w))
  | 0x5 => .ok (.tcs (fieldRs1 w) (fieldTrapNum w))
  | 0x6 => .ok (.tneg (fieldRs1 w) (fieldTrapNum w))
  | 0x7 => .ok (.tvs (fieldRs1 w) (fieldTrapNum w))
  | 0x8 => .ok (.ta (fieldRs1 w) (fieldTrapNum w))
  | 0x9 => .ok (.tne (fieldRs1 w) (fieldTrapNum w))
  | 0xA => .ok (.tg (fieldRs1 w) (fieldTrapNum w))
  | 0xB => .ok (.tge (fieldRs1 w) (fieldTrapNum w))
  | 0xC => .ok (.tgu (fieldRs1 w) (fieldTrapNum w))
  | 0xD => .ok (.tcc (fieldRs1 w) (fieldTrapNum w))
  | 0xE => .ok (.tpos (fieldRs1 w) (fieldTrapNum w))
  | _ => .ok (.tvc (fieldRs1 w) (fieldTrapNum w))

/-- FPop1 (R242). -/
def decodeFPop1 (w : Word) : Except DecodeError Instr :=
  match (fieldOpf w).toNat with
  | 0x001 => .ok (.fmovs (fieldRd w) (fieldRs2 w))
  | 0x005 => .ok (.fnegs (fieldRd w) (fieldRs2 w))
  | 0x009 => .ok (.fabss (fieldRd w) (fieldRs2 w))
  | 0x029 => .ok (.fsqrts (fieldRd w) (fieldRs2 w))
  | 0x02A => .ok (.fsqrtd (fieldRd w) (fieldRs2 w))
  | 0x02B => .ok (.fsqrtq (fieldRd w) (fieldRs2 w))
  | 0x041 => .ok (.fadds (fieldRd w) (fieldRs1 w) (fieldRs2 w))
  | 0x042 => .ok (.faddd (fieldRd w) (fieldRs1 w) (fieldRs2 w))
  | 0x043 => .ok (.faddq (fieldRd w) (fieldRs1 w) (fieldRs2 w))
  | 0x045 => .ok (.fsubs (fieldRd w) (fieldRs1 w) (fieldRs2 w))
  | 0x046 => .ok (.fsubd (fieldRd w) (fieldRs1 w) (fieldRs2 w))
  | 0x047 => .ok (.fsubq (fieldRd w) (fieldRs1 w) (fieldRs2 w))
  | 0x049 => .ok (.fmuls (fieldRd w) (fieldRs1 w) (fieldRs2 w))
  | 0x04A => .ok (.fmuld (fieldRd w) (fieldRs1 w) (fieldRs2 w))
  | 0x04B => .ok (.fmulq (fieldRd w) (fieldRs1 w) (fieldRs2 w))
  | 0x04D => .ok (.fdivs (fieldRd w) (fieldRs1 w) (fieldRs2 w))
  | 0x04E => .ok (.fdivd (fieldRd w) (fieldRs1 w) (fieldRs2 w))
  | 0x04F => .ok (.fdivq (fieldRd w) (fieldRs1 w) (fieldRs2 w))
  | 0x069 => .ok (.fsmuld (fieldRd w) (fieldRs1 w) (fieldRs2 w))
  | 0x06E => .ok (.fdmulq (fieldRd w) (fieldRs1 w) (fieldRs2 w))
  | 0x0C4 => .ok (.fitos (fieldRd w) (fieldRs2 w))
  | 0x0C6 => .ok (.fdtos (fieldRd w) (fieldRs2 w))
  | 0x0C7 => .ok (.fqtos (fieldRd w) (fieldRs2 w))
  | 0x0C8 => .ok (.fitod (fieldRd w) (fieldRs2 w))
  | 0x0C9 => .ok (.fstod (fieldRd w) (fieldRs2 w))
  | 0x0CB => .ok (.fqtod (fieldRd w) (fieldRs2 w))
  | 0x0CC => .ok (.fitoq (fieldRd w) (fieldRs2 w))
  | 0x0CD => .ok (.fstoq (fieldRd w) (fieldRs2 w))
  | 0x0CE => .ok (.fdtoq (fieldRd w) (fieldRs2 w))
  | 0x0D1 => .ok (.fstoi (fieldRd w) (fieldRs2 w))
  | 0x0D2 => .ok (.fdtoi (fieldRd w) (fieldRs2 w))
  | 0x0D3 => .ok (.fqtoi (fieldRd w) (fieldRs2 w))
  | _ => .ok (.fpop1Other (fieldRd w) (fieldRs1 w) (fieldOpf w) (fieldRs2 w))

/-- FPop2 (R242). -/
def decodeFPop2 (w : Word) : Except DecodeError Instr :=
  match (fieldOpf w).toNat with
  | 0x051 => .ok (.fcmps (fieldRs1 w) (fieldRs2 w))
  | 0x052 => .ok (.fcmpd (fieldRs1 w) (fieldRs2 w))
  | 0x053 => .ok (.fcmpq (fieldRs1 w) (fieldRs2 w))
  | 0x055 => .ok (.fcmpes (fieldRs1 w) (fieldRs2 w))
  | 0x056 => .ok (.fcmped (fieldRs1 w) (fieldRs2 w))
  | 0x057 => .ok (.fcmpeq (fieldRs1 w) (fieldRs2 w))
  | _ => .ok (.fpop2Other (fieldRd w) (fieldRs1 w) (fieldOpf w) (fieldRs2 w))

/-- `op3` = 0x28, split by `rs1` and `rd` in the order of R248 (1). -/
def decodeReadState (w : Word) : Except DecodeError Instr :=
  if fieldRs1 w = 0 then .ok (.rdy (fieldRd w))
  else if fieldRs1 w = 15 ∧ fieldRd w = 0 then .ok .stbar
  else .ok (.rdasr ⟨fieldRd w, fieldOpnd2 w⟩ (fieldRs1 w))

/-- `op3` = 0x30, split by `rd` (R248 (2)). -/
def decodeWriteState (w : Word) : Except DecodeError Instr :=
  if fieldRd w = 0 then .ok (.wry (fieldRs1 w) (fieldOpnd2 w))
  else .ok (.wrasr (fieldRd w) (fieldRs1 w) (fieldOpnd2 w))

/-- `op` = 2 (R240). -/
def decodeArith (w : Word) : Except DecodeError Instr :=
  match (fieldOp3 w).toNat with
  | 0x00 => .ok (.add (fieldRd w) (fieldRs1 w) (fieldOpnd2 w))
  | 0x01 => .ok (.and (fieldRd w) (fieldRs1 w) (fieldOpnd2 w))
  | 0x02 => .ok (.or (fieldRd w) (fieldRs1 w) (fieldOpnd2 w))
  | 0x03 => .ok (.xor (fieldRd w) (fieldRs1 w) (fieldOpnd2 w))
  | 0x04 => .ok (.sub (fieldRd w) (fieldRs1 w) (fieldOpnd2 w))
  | 0x05 => .ok (.andn (fieldRd w) (fieldRs1 w) (fieldOpnd2 w))
  | 0x06 => .ok (.orn (fieldRd w) (fieldRs1 w) (fieldOpnd2 w))
  | 0x07 => .ok (.xnor (fieldRd w) (fieldRs1 w) (fieldOpnd2 w))
  | 0x08 => .ok (.addx (fieldRd w) (fieldRs1 w) (fieldOpnd2 w))
  | 0x0A => .ok (.umul (fieldRd w) (fieldRs1 w) (fieldOpnd2 w))
  | 0x0B => .ok (.smul (fieldRd w) (fieldRs1 w) (fieldOpnd2 w))
  | 0x0C => .ok (.subx (fieldRd w) (fieldRs1 w) (fieldOpnd2 w))
  | 0x0E => .ok (.udiv (fieldRd w) (fieldRs1 w) (fieldOpnd2 w))
  | 0x0F => .ok (.sdiv (fieldRd w) (fieldRs1 w) (fieldOpnd2 w))
  | 0x10 => .ok (.addcc (fieldRd w) (fieldRs1 w) (fieldOpnd2 w))
  | 0x11 => .ok (.andcc (fieldRd w) (fieldRs1 w) (fieldOpnd2 w))
  | 0x12 => .ok (.orcc (fieldRd w) (fieldRs1 w) (fieldOpnd2 w))
  | 0x13 => .ok (.xorcc (fieldRd w) (fieldRs1 w) (fieldOpnd2 w))
  | 0x14 => .ok (.subcc (fieldRd w) (fieldRs1 w) (fieldOpnd2 w))
  | 0x15 => .ok (.andncc (fieldRd w) (fieldRs1 w) (fieldOpnd2 w))
  | 0x16 => .ok (.orncc (fieldRd w) (fieldRs1 w) (fieldOpnd2 w))
  | 0x17 => .ok (.xnorcc (fieldRd w) (fieldRs1 w) (fieldOpnd2 w))
  | 0x18 => .ok (.addxcc (fieldRd w) (fieldRs1 w) (fieldOpnd2 w))
  | 0x1A => .ok (.umulcc (fieldRd w) (fieldRs1 w) (fieldOpnd2 w))
  | 0x1B => .ok (.smulcc (fieldRd w) (fieldRs1 w) (fieldOpnd2 w))
  | 0x1C => .ok (.subxcc (fieldRd w) (fieldRs1 w) (fieldOpnd2 w))
  | 0x1E => .ok (.udivcc (fieldRd w) (fieldRs1 w) (fieldOpnd2 w))
  | 0x1F => .ok (.sdivcc (fieldRd w) (fieldRs1 w) (fieldOpnd2 w))
  | 0x20 => .ok (.taddcc (fieldRd w) (fieldRs1 w) (fieldOpnd2 w))
  | 0x21 => .ok (.tsubcc (fieldRd w) (fieldRs1 w) (fieldOpnd2 w))
  | 0x22 => .ok (.taddcctv (fieldRd w) (fieldRs1 w) (fieldOpnd2 w))
  | 0x23 => .ok (.tsubcctv (fieldRd w) (fieldRs1 w) (fieldOpnd2 w))
  | 0x24 => .ok (.mulscc (fieldRd w) (fieldRs1 w) (fieldOpnd2 w))
  | 0x25 => .ok (.sll (fieldRd w) (fieldRs1 w) (fieldShCount w))
  | 0x26 => .ok (.srl (fieldRd w) (fieldRs1 w) (fieldShCount w))
  | 0x27 => .ok (.sra (fieldRd w) (fieldRs1 w) (fieldShCount w))
  | 0x28 => decodeReadState w
  | 0x29 => .ok (.rdpsr (fieldRd w))
  | 0x2A => .ok (.rdwim ⟨fieldRd w, fieldOpnd2 w⟩)
  | 0x2B => .ok (.rdtbr ⟨fieldRd w, fieldOpnd2 w⟩)
  | 0x30 => decodeWriteState w
  | 0x31 => .ok (.wrpsr (fieldRs1 w) (fieldOpnd2 w))
  | 0x32 => .ok (.wrwim (fieldRs1 w) (fieldOpnd2 w))
  | 0x33 => .ok (.wrtbr (fieldRs1 w) (fieldOpnd2 w))
  | 0x34 => decodeFPop1 w
  | 0x35 => decodeFPop2 w
  | 0x36 => .ok (.cpop1 (fieldRd w) (fieldRs1 w) (fieldOpf w) (fieldRs2 w))
  | 0x37 => .ok (.cpop2 (fieldRd w) (fieldRs1 w) (fieldOpf w) (fieldRs2 w))
  | 0x38 => .ok (.jmpl (fieldRd w) (fieldRs1 w) (fieldOpnd2 w))
  | 0x39 => .ok (.rett (fieldRs1 w) (fieldOpnd2 w))
  | 0x3A => decodeTicc w
  | 0x3B => .ok (.flush (fieldRs1 w) (fieldOpnd2 w))
  | 0x3C => .ok (.save (fieldRd w) (fieldRs1 w) (fieldOpnd2 w))
  | 0x3D => .ok (.restore (fieldRd w) (fieldRs1 w) (fieldOpnd2 w))
  | _ => .error .unallocatedArith

/-- `op` = 3 (R241). -/
def decodeMemory (w : Word) : Except DecodeError Instr :=
  match (fieldOp3 w).toNat with
  | 0x00 => .ok (.ld (fieldRd w) (fieldRs1 w) (fieldOpnd2 w))
  | 0x01 => .ok (.ldub (fieldRd w) (fieldRs1 w) (fieldOpnd2 w))
  | 0x02 => .ok (.lduh (fieldRd w) (fieldRs1 w) (fieldOpnd2 w))
  | 0x03 => .ok (.ldd (fieldRd w) (fieldRs1 w) (fieldOpnd2 w))
  | 0x04 => .ok (.st (fieldRd w) (fieldRs1 w) (fieldOpnd2 w))
  | 0x05 => .ok (.stb (fieldRd w) (fieldRs1 w) (fieldOpnd2 w))
  | 0x06 => .ok (.sth (fieldRd w) (fieldRs1 w) (fieldOpnd2 w))
  | 0x07 => .ok (.std (fieldRd w) (fieldRs1 w) (fieldOpnd2 w))
  | 0x09 => .ok (.ldsb (fieldRd w) (fieldRs1 w) (fieldOpnd2 w))
  | 0x0A => .ok (.ldsh (fieldRd w) (fieldRs1 w) (fieldOpnd2 w))
  | 0x0D => .ok (.ldstub (fieldRd w) (fieldRs1 w) (fieldOpnd2 w))
  | 0x0F => .ok (.swap (fieldRd w) (fieldRs1 w) (fieldOpnd2 w))
  | 0x10 => .ok (.lda (fieldRd w) (fieldRs1 w) (fieldI w) (fieldAsi w) (fieldRs2 w))
  | 0x11 => .ok (.lduba (fieldRd w) (fieldRs1 w) (fieldI w) (fieldAsi w) (fieldRs2 w))
  | 0x12 => .ok (.lduha (fieldRd w) (fieldRs1 w) (fieldI w) (fieldAsi w) (fieldRs2 w))
  | 0x13 => .ok (.ldda (fieldRd w) (fieldRs1 w) (fieldI w) (fieldAsi w) (fieldRs2 w))
  | 0x14 => .ok (.sta (fieldRd w) (fieldRs1 w) (fieldI w) (fieldAsi w) (fieldRs2 w))
  | 0x15 => .ok (.stba (fieldRd w) (fieldRs1 w) (fieldI w) (fieldAsi w) (fieldRs2 w))
  | 0x16 => .ok (.stha (fieldRd w) (fieldRs1 w) (fieldI w) (fieldAsi w) (fieldRs2 w))
  | 0x17 => .ok (.stda (fieldRd w) (fieldRs1 w) (fieldI w) (fieldAsi w) (fieldRs2 w))
  | 0x19 => .ok (.ldsba (fieldRd w) (fieldRs1 w) (fieldI w) (fieldAsi w) (fieldRs2 w))
  | 0x1A => .ok (.ldsha (fieldRd w) (fieldRs1 w) (fieldI w) (fieldAsi w) (fieldRs2 w))
  | 0x1D => .ok (.ldstuba (fieldRd w) (fieldRs1 w) (fieldI w) (fieldAsi w) (fieldRs2 w))
  | 0x1F => .ok (.swapa (fieldRd w) (fieldRs1 w) (fieldI w) (fieldAsi w) (fieldRs2 w))
  | 0x20 => .ok (.ldf (fieldRd w) (fieldRs1 w) (fieldOpnd2 w))
  | 0x21 => .ok (.ldfsr (fieldRd w) (fieldRs1 w) (fieldOpnd2 w))
  | 0x23 => .ok (.lddf (fieldRd w) (fieldRs1 w) (fieldOpnd2 w))
  | 0x24 => .ok (.stf (fieldRd w) (fieldRs1 w) (fieldOpnd2 w))
  | 0x25 => .ok (.stfsr (fieldRd w) (fieldRs1 w) (fieldOpnd2 w))
  | 0x26 => .ok (.stdfq (fieldRd w) (fieldRs1 w) (fieldOpnd2 w))
  | 0x27 => .ok (.stdf (fieldRd w) (fieldRs1 w) (fieldOpnd2 w))
  | 0x30 => .ok (.ldc (fieldRd w) (fieldRs1 w) (fieldOpnd2 w))
  | 0x31 => .ok (.ldcsr (fieldRd w) (fieldRs1 w) (fieldOpnd2 w))
  | 0x33 => .ok (.lddc (fieldRd w) (fieldRs1 w) (fieldOpnd2 w))
  | 0x34 => .ok (.stc (fieldRd w) (fieldRs1 w) (fieldOpnd2 w))
  | 0x35 => .ok (.stcsr (fieldRd w) (fieldRs1 w) (fieldOpnd2 w))
  | 0x36 => .ok (.stdcq (fieldRd w) (fieldRs1 w) (fieldOpnd2 w))
  | 0x37 => .ok (.stdc (fieldRd w) (fieldRs1 w) (fieldOpnd2 w))
  | _ => .error .unallocatedMemory

/-- The instruction a word names by its defining fields alone (R248). -/
def decodeFields (w : Word) : Except DecodeError Instr :=
  match (fieldOp w).toNat with
  | 0 => decodeFormat2 w
  | 1 => .ok (.call (fieldDisp30 w))
  | 2 => decodeArith w
  | _ => decodeMemory w

/-- The instruction of a word whose reserved bits are zero (D13). -/
def decodeWord (w : Word) : Except DecodeError Instr :=
  match decodeFields w with
  | .ok i => if encode i = w then .ok i else .error .reservedBits
  | .error e => .error e

/-! ## Bytes -/

/-- Four bytes as an instruction word, the first the most significant (R230). -/
def wordOfBytes (b0 b1 b2 b3 : Byte) : Word := b0 ++ b1 ++ b2 ++ b3

/-- The bytes of an instruction word, lowest address first (R230). -/
def bytesOfWord (w : Word) : List Byte :=
  [w.extractLsb' 24 8, w.extractLsb' 16 8, w.extractLsb' 8 8, w.extractLsb' 0 8]

/-- The decoder, on any bytes: the instruction and the bytes after it. -/
def decode : List Byte → Except DecodeError (Instr × List Byte)
  | b0 :: b1 :: b2 :: b3 :: rest =>
    match decodeWord (wordOfBytes b0 b1 b2 b3) with
    | .ok i => .ok (i, rest)
    | .error e => .error e
  | _ => .error .truncated

/-- The instruction the decoder reads from the word `w` of the opcode table, stored as the hardware stores it. Every
instruction has 32 bits; bits of `w` above `nbits` count as 0. -/
def decodeTableWord (nbits w : Nat) : Option Instr :=
  match decode (bytesOfWord (BitVec.ofNat 32 (w % 2 ^ nbits))) with
  | .ok (i, _) => some i
  | .error _ => none

end Sys2Proof
end

