-- ==== Sys2Proof/Machine/Asi.lean ====
section
/-! DEFINITION. What loads and stores do in the address spaces that are not memory (45_mmu_asi_operations.md,
46_cache_diag_and_monitor_asi.md). Data is never byte-swapped here (D16); alignment has been checked. -/

namespace Sys2Proof.Machine

/-- The width of an access (R158). -/
inductive Width where
  | byte
  | half
  | word
  | dword
deriving DecidableEq, Repr

/-- How many bytes an access moves. -/
def bytesOf (w : Width) : Nat :=
  match w with
  | .byte => 1
  | .half => 2
  | .word => 4
  | .dword => 8

/-! ## ASI 0x04, MMU registers (R660 to R668) -/

/-- MCNTL as a word (R55, R661): the reserved bits and PF are free (U8, log 9). -/
def mcntlWord (s : State) : Word :=
  let m := s.mmu.cntl
  let free := freeValue s
  0#4 ++ (if Config.stp1021A then 0xA#4 else 0x8#4) ++ free.extractLsb' 0 7 ++ BitVec.ofBool m.tc ++
    BitVec.ofBool m.ac ++ BitVec.ofBool m.se ++ BitVec.ofBool m.bt ++ BitVec.ofBool m.pe ++ 0#1 ++
    BitVec.ofBool m.sb ++ BitVec.ofBool m.ie ++ BitVec.ofBool m.de ++ BitVec.ofBool m.pso ++ free.extractLsb' 7 5 ++
    BitVec.ofBool m.nf ++ BitVec.ofBool m.en

/-- The bits of MCNTL that take a stored value (R662). -/
def mcntlOfWord (w : Word) : Mcntl where
  tc := w.getLsbD 16
  ac := w.getLsbD 15
  se := w.getLsbD 14
  bt := w.getLsbD 13
  pe := w.getLsbD 12
  sb := w.getLsbD 10
  ie := w.getLsbD 9
  de := w.getLsbD 8
  pso := w.getLsbD 7
  nf := w.getLsbD 1
  en := w.getLsbD 0

/-- MFSR as a word (R60). -/
def mfsrWord (s : State) : Word :=
  s.mmu.fsr.high ++ s.mmu.fsr.level ++ s.mmu.fsr.atype ++ s.mmu.fsr.ftype ++
    BitVec.ofBool s.mmu.fsr.fav ++ BitVec.ofBool s.mmu.fsr.ow

/-- A data cache tag nothing is known of (R73). -/
def freeTag (n : Nat) : DTag :=
  { v := (Config.freeBits n).getLsbD 24, paddr := (Config.freeBits n).extractLsb' 0 24, cleared := true }

/-- Store MCNTL. When the data cache is switched off its tags are whatever its use has left there (log 20). -/
def writeMcntl (w : Word) (s : State) : State :=
  let s1 := { s with mmu := { s.mmu with cntl := mcntlOfWord w } }
  if s.mmu.cntl.de && !w.getLsbD 8 then
    { s1 with dtags := Vector.ofFn fun i : Fin 512 => freeTag (s.fresh + i), fresh := s.fresh + 512 }
  else s1

/-- Software has reset the valid bit of every line of the data cache (R73). -/
def dcacheCleared (s : State) : Bool := s.dtags.toList.all DTag.cleared

/-- The stored word switches on a cache whose valid bits software has not reset (R72, R73, R860). -/
def enablesUncleared (w : Word) (s : State) : Bool :=
  (w.getLsbD 9 && !s.mmu.cntl.ie && !s.icacheCleared) || (w.getLsbD 8 && !s.mmu.cntl.de && !dcacheCleared s)

/-- The context number a stored word holds: its low CTX_BITS bits (R59, R664). -/
def contextNumber (w : Word) : Word := w &&& BitVec.ofNat 32 (2 ^ Config.ctxBits.val - 1)

/-- A word load in ASI 0x04. The reserved bits 1:0 of MCTP are free at each read: no rule says what they read as (R58, U8,
log 9). MSFSR traps (R62); that the access records nothing in MFSR and MFAR is a DESIGN CHOICE (N14, log 23). -/
def loadMmuRegister (a : Word) (s : State) : Res Word :=
  match a.toNat with
  | 0x0000 => .ok (mcntlWord s) (drawn s)
  | 0x0100 => .ok (s.mmu.ctp ++ (freeValue s).extractLsb' 0 2) (drawn s)
  | 0x0200 => .ok s.mmu.ctx s
  | 0x0300 =>
    .ok (mfsrWord s)
      { s with mmu := { s.mmu with fsr := { ow := false, fav := false, ftype := 0, atype := 0, level := 0, high := 0 } } }
  | 0x0400 => .ok s.mmu.far s
  | 0x1500 => .trap ttDataAccess s
  | _ => .refused .asiRegister

/-- A word store in ASI 0x04. MSFSR traps and, as on a load, records nothing (R62, log 23). -/
def storeMmuRegister (a v : Word) (s : State) : Res Unit :=
  match a.toNat with
  | 0x0000 => if enablesUncleared v s then .refused .cacheNotCleared else .ok () (writeMcntl v s)
  | 0x0100 => .ok () { s with mmu := dropPtp0 (dropPtp2 { s.mmu with ctp := v.extractLsb' 2 30 }) }
  | 0x0200 => .ok () { s with mmu := dropPtp0 (dropPtp2 { s.mmu with ctx := contextNumber v }) }
  | 0x0300 => .refused .undescribedDirection
  | 0x0400 => .refused .undescribedDirection
  | 0x1500 => .trap ttDataAccess s
  | _ => .refused .asiRegister

/-! ## ASI 0x05 and 0x06, TLB entries and pointer caches (R670 to R680) -/

/-- The I-TLB entry an address selects (R672). -/
def itlbIndex (a : Word) : Fin 16 := (a.extractLsb' 12 4).toFin
/-- The D-TLB entry an address selects (R672). -/
def dtlbIndex (a : Word) : Fin 64 := (a.extractLsb' 12 6).toFin
/-- The D_PTP2 entry an address selects (R672). -/
def ptp2Index (a : Word) : Fin 4 := (a.extractLsb' 12 2).toFin

/-- Sel = 2: the cached PTE word (R674). M reads 0 in the I-TLB (D35). -/
def tlbWord (data : Bool) (e : TlbEntry) : Word :=
  e.ppn ++ BitVec.ofBool e.c ++ BitVec.ofBool (data && e.m) ++ BitVec.ofBool e.v ++ e.acc ++ Config.lvlCode e.level

/-- Sel = 2: the entry after a store of `w` (R674). The I-TLB stores no M (D35). -/
def tlbOfWord (data : Bool) (w : Word) (e : TlbEntry) : TlbEntry :=
  { e with
    ppn := w.extractLsb' 8 24
    c := w.getLsbD 7
    m := data && w.getLsbD 6
    v := w.getLsbD 5
    acc := w.extractLsb' 2 3
    level := Config.lvlCode.symm (w.extractLsb' 0 2) }

/-- Sel = 3: RBO and Lock (R675). RBO reads 0 in the I-TLB. -/
def lockWord (data : Bool) (e : TlbEntry) : Word := 0#30 ++ BitVec.ofBool (data && e.rbo) ++ BitVec.ofBool e.lock

/-- Sel = 3: the entry after a store of `w`. The I-TLB has no RBO. -/
def lockOfWord (data : Bool) (w : Word) (e : TlbEntry) : TlbEntry :=
  { e with rbo := data && w.getLsbD 1, lock := w.getLsbD 0 }

/-- Sel = 4: PTP0 (R676). -/
def ptp0Word (p : Ptp0) : Word := p.ptr ++ 0#4 ++ p.valid
/-- Sel = 5: a level-2 pointer (R677). -/
def ptp2Word (p : Ptp2) : Word := p.ptr ++ 0#2 ++ p.valid
/-- Sel = 6: the tag of a level-2 pointer (R678). -/
def tagWord (p : Ptp2) : Word := p.tag ++ 0#18

/-- The level-2 pointer that ASI 0x05 or 0x06 reaches at an address. -/
def selectedPtp2 (data : Bool) (a : Word) (s : State) : Ptp2 :=
  if data then s.mmu.dptp2[ptp2Index a] else s.mmu.iptp2

/-- Replace that pointer. -/
def setPtp2 (data : Bool) (a : Word) (p : Ptp2) (s : State) : State :=
  if data then { s with mmu := { s.mmu with dptp2 := s.mmu.dptp2.set (ptp2Index a) p } }
  else { s with mmu := { s.mmu with iptp2 := p } }

/-- The TLB entry that ASI 0x05 or 0x06 reaches at an address. -/
def selectedEntry (data : Bool) (a : Word) (s : State) : TlbEntry :=
  if data then s.mmu.dtlb[dtlbIndex a] else s.mmu.itlb[itlbIndex a]

/-- Replace that entry. -/
def setEntry (data : Bool) (a : Word) (e : TlbEntry) (s : State) : State :=
  if data then { s with mmu := { s.mmu with dtlb := s.mmu.dtlb.set (dtlbIndex a) e } }
  else { s with mmu := { s.mmu with itlb := s.mmu.itlb.set (itlbIndex a) e } }

/-- A word load in ASI 0x05 (`data` false) or 0x06. -/
def loadTlb (data : Bool) (a : Word) (s : State) : Res Word :=
  match (a.extractLsb' 8 3).toNat with
  | 2 => .ok (tlbWord data (selectedEntry data a s)) s
  | 3 => .ok (lockWord data (selectedEntry data a s)) s
  | 4 => .ok (ptp0Word s.mmu.ptp0) s
  | 5 => .ok (ptp2Word (selectedPtp2 data a s)) s
  | 6 => .ok (tagWord (selectedPtp2 data a s)) s
  | _ => .refused .tlbSelect

/-- Every entry is locked and valid (R876). -/
def allLocked {n : Nat} (tlb : Vector TlbEntry n) : Bool := tlb.toList.all fun e => e.lock && e.v

/-- The side's TLB is in the state R876 says to refuse. -/
def sideLocked (data : Bool) (s : State) : Bool := if data then allLocked s.mmu.dtlb else allLocked s.mmu.itlb

/-- Store an entry, unless that would leave every entry of its TLB locked and valid (R876). -/
def storeEntry (data : Bool) (a : Word) (e : TlbEntry) (s : State) : Res Unit :=
  if sideLocked data (setEntry data a e s) then .refused .tlbAllLocked else .ok () (setEntry data a e s)

/-- A word store in ASI 0x05 (`data` false) or 0x06. -/
def storeTlb (data : Bool) (a v : Word) (s : State) : Res Unit :=
  match (a.extractLsb' 8 3).toNat with
  | 2 => storeEntry data a (tlbOfWord data v (selectedEntry data a s)) s
  | 3 => storeEntry data a (lockOfWord data v (selectedEntry data a s)) s
  | 4 =>
    if v.getLsbD 1 then .refused .ptpValid
    else .ok () { s with mmu := { s.mmu with ptp0 := { ptr := v.extractLsb' 6 26, valid := v.extractLsb' 0 2 } } }
  | 5 =>
    if v.getLsbD 1 then .refused .ptpValid
    else
      .ok () (setPtp2 data a
        { selectedPtp2 data a s with ptr := v.extractLsb' 4 28, valid := v.extractLsb' 0 2 } s)
  | 6 => .ok () (setPtp2 data a { selectedPtp2 data a s with tag := v.extractLsb' 18 14 } s)
  | _ => .refused .tlbSelect

/-! ## ASI 0x0E, 0x36 and 0x37, the data cache (R705, R712) -/

/-- A tag as the doubleword of R74. D and S read 0. The Rsvd fields read 0 by R74 and R705 and any value by section 1 of
93_implementation_defined.md: to follow the two rules is a DESIGN CHOICE (log 20). -/
def dtagWord (t : DTag) : BitVec 64 := 0#7 ++ BitVec.ofBool t.v ++ 0#32 ++ t.paddr

/-- A doubleword load in ASI 0x0E. While the cache is on, its tags follow accesses no rule describes, so they are
free (log 20). -/
def loadDtag (a : Word) (s : State) : Res (BitVec 64) :=
  if s.mmu.cntl.de then .ok (dtagWord (freeTag s.fresh)) (drawn s)
  else .ok (dtagWord s.dtags[Config.dcacheLine a]) s

/-- A doubleword store in ASI 0x0E. Writing V = 0 to a line initialises it (R705). -/
def storeDtag (a : Word) (v : BitVec 64) (s : State) : State :=
  let old := s.dtags[Config.dcacheLine a]
  { s with
    dtags :=
      s.dtags.set (Config.dcacheLine a)
        { v := v.getLsbD 56, paddr := v.extractLsb' 0 24, cleared := old.cleared || !v.getLsbD 56 } }

/-- Flash clear of the data cache (R712). -/
def flashClear (s : State) : State :=
  { s with dtags := mapVec (fun t : DTag => { t with v := false, cleared := true }) s.dtags }

/-- Flash clear of the instruction cache, whose lines are transparent (R712, D29). -/
def flashClearInstr (s : State) : State := { s with icacheCleared := true }

/-! ## ASI 0x38 to 0x4C, the monitor (R720 to R738) -/

/-- A doubleword load in ASI 0x38. -/
def loadBreakpoint (a : Word) (s : State) : Res (BitVec 64) :=
  match a.toNat with
  | 0x000 => .ok (s.mon.bkv.setWidth 64) s
  | 0x100 => .ok (s.mon.bkm.setWidth 64) s
  | 0x200 => .ok (s.mon.bkc.setWidth 64) s
  | _ => .refused .asiRegister

/-- A doubleword store in ASI 0x38. BKC with PAMD = 1 is not defined (R723). -/
def storeBreakpoint (a : Word) (v : BitVec 64) (s : State) : Res Unit :=
  match a.toNat with
  | 0x000 => .ok () { s with mon := { s.mon with bkv := v.extractLsb' 0 32 } }
  | 0x100 => .ok () { s with mon := { s.mon with bkm := v.extractLsb' 0 32 } }
  | 0x200 =>
    if v.getLsbD 5 then .refused .physicalBreakpoint
    else .ok () { s with mon := { s.mon with bkc := v.extractLsb' 0 7 } }
  | _ => .refused .asiRegister

/-- CTRC as a word (R81). -/
def ctrcWord (c : Ctrc) : Word :=
  c.selA ++ BitVec.ofBool c.ua ++ BitVec.ofBool c.ka ++ BitVec.ofBool c.aen ++ 0#5 ++ c.selB ++
    BitVec.ofBool c.ub ++ BitVec.ofBool c.kb ++ BitVec.ofBool c.ben ++ 0#5

/-- CTRC from a stored word (R734). -/
def ctrcOfWord (w : Word) : Ctrc where
  selA := w.extractLsb' 24 8
  ua := w.getLsbD 23
  ka := w.getLsbD 22
  aen := w.getLsbD 21
  selB := w.extractLsb' 8 8
  ub := w.getLsbD 7
  kb := w.getLsbD 6
  ben := w.getLsbD 5

/-- CounterA counts cycles in some mode, so its value is free (R820, U19). -/
def cyclesA (c : Ctrc) : Bool := c.aen && c.selA == 0 && (c.ua || c.ka)
/-- CounterB counts cycles in some mode. -/
def cyclesB (c : Ctrc) : Bool := c.ben && c.selB == 0 && (c.ub || c.kb)

/-- A counter of cycles may interrupt: what R820 says to refuse. -/
def cycleInterrupt (c : Ctrc) (action : BitVec 13) : Bool := (cyclesA c && intA action) || (cyclesB c && intB action)

/-- A word store of CTRC (R734). -/
def storeCtrc (v : Word) (s : State) : Res Unit :=
  let c := ctrcOfWord v
  if 2 ≤ c.selA.toNat ∨ 2 ≤ c.selB.toNat then .refused .counterSelect
  else if cycleInterrupt c s.mon.action then .refused .cycleCounterInterrupt
  else .ok () { s with mon := { s.mon with ctrc := c } }

/-- A doubleword store of ACTION writes bits 12:0 (R738). MIX, bit 12, of unknown function, is kept and does nothing
(DESIGN CHOICE, log 50). Clearing an enable withdraws its pending interrupt (D19). -/
def storeAction (v : BitVec 64) (s : State) : Res Unit :=
  let action : BitVec 13 := v.extractLsb' 0 13
  if cycleInterrupt s.mon.ctrc action then .refused .cycleCounterInterrupt
  else
    .ok () { s with
      mon :=
        { s.mon with
          action := action
          pendA := s.mon.pendA && intA action
          pendB := s.mon.pendB && intB action
          pendC := s.mon.pendC && intC action
          pendD := s.mon.pendD && intD action } }

/-- A word load of CTRS, which clears it (R736). -/
def loadCtrs (s : State) : Res Word :=
  .ok (0#30 ++ BitVec.ofBool s.mon.zacis ++ BitVec.ofBool s.mon.zbcis)
    { s with mon := { s.mon with zacis := false, zbcis := false } }

/-! ## One load and one store for all of them -/

/-- A word in the low half of a doubleword. -/
def wordRes (x : Res Word) : Res (BitVec 64) := andThen x fun v s => .ok (v.setWidth 64) s

/-- Only word accesses are described here. -/
def onlyWord {α : Type} (w : Width) (x : Res α) : Res α := if w = .word then x else .refused .asiWidth
/-- Only doubleword accesses are described here. -/
def onlyDword {α : Type} (w : Width) (x : Res α) : Res α := if w = .dword then x else .refused .asiWidth

/-- A load in an address space that is not memory. An unimplemented space traps (R133, D14, log 23). That the address
selects nothing in 0x48 to 0x4C, as R730 says of 0x40, is a DESIGN CHOICE (R732 to R738, log 47). -/
def loadAsi (asi : Asi) (w : Width) (a : Word) (s : State) : Res (BitVec 64) :=
  match asi.toNat with
  | 0x02 => .refused .mxccControlSpace
  | 0x03 => onlyWord w (wordRes (probeMmu a s))
  | 0x04 => onlyWord w (wordRes (loadMmuRegister a s))
  | 0x05 => onlyWord w (wordRes (loadTlb false a s))
  | 0x06 => onlyWord w (wordRes (loadTlb true a s))
  | 0x0C => .refused .cacheDiagnostic
  | 0x0D => .refused .cacheDiagnostic
  | 0x0E => onlyDword w (loadDtag a s)
  | 0x0F => .refused .cacheDiagnostic
  | 0x30 => .refused .storeBufferDiagnostic
  | 0x31 => .refused .storeBufferDiagnostic
  | 0x32 => .refused .storeBufferDiagnostic
  | 0x36 => .refused .undescribedDirection
  | 0x37 => .refused .undescribedDirection
  | 0x38 => onlyDword w (loadBreakpoint a s)
  | 0x39 => .refused .bist
  | 0x40 => onlyWord w (.ok (s.mon.kernel.setWidth 64) s)
  | 0x48 =>
    onlyWord w (if cyclesA s.mon.ctrc then .ok ((freeValue s).extractLsb' 0 32 |>.setWidth 64) (drawn s)
      else .ok (s.mon.counterA.setWidth 64) s)
  | 0x49 =>
    onlyWord w (if cyclesB s.mon.ctrc then .ok ((freeValue s).extractLsb' 0 32 |>.setWidth 64) (drawn s)
      else .ok (s.mon.counterB.setWidth 64) s)
  | 0x4A => onlyWord w (.ok ((ctrcWord s.mon.ctrc).setWidth 64) s)
  | 0x4B => onlyWord w (wordRes (loadCtrs s))
  | 0x4C => onlyDword w (.ok (s.mon.action.setWidth 64) s)
  | _ => .trap ttDataAccess s

/-- A store in an address space that is not memory; the address selects nothing in 0x48 to 0x4C (log 47). -/
def storeAsi (asi : Asi) (w : Width) (a : Word) (d : BitVec 64) (s : State) : Res Unit :=
  let v : Word := d.extractLsb' 0 32
  match asi.toNat with
  | 0x02 => .refused .mxccControlSpace
  | 0x03 => onlyWord w (.ok () (flushMmu a s))
  | 0x04 => onlyWord w (storeMmuRegister a v s)
  | 0x05 => onlyWord w (storeTlb false a v s)
  | 0x06 => onlyWord w (storeTlb true a v s)
  | 0x0C => .refused .cacheDiagnostic
  | 0x0D => .refused .cacheDiagnostic
  | 0x0E => onlyDword w (.ok () (storeDtag a d s))
  | 0x0F => .refused .cacheDiagnostic
  | 0x30 => .refused .storeBufferDiagnostic
  | 0x31 => .refused .storeBufferDiagnostic
  | 0x32 => .refused .storeBufferDiagnostic
  | 0x36 => onlyWord w (.ok () (flashClearInstr s))
  | 0x37 => onlyWord w (.ok () (flashClear s))
  | 0x38 => onlyDword w (storeBreakpoint a d s)
  | 0x39 => .refused .bist
  | 0x40 => onlyWord w (.ok () { s with mon := { s.mon with kernel := v } })
  | 0x48 => onlyWord w (.ok () { s with mon := { s.mon with counterA := v }, wroteA := true })
  | 0x49 => onlyWord w (.ok () { s with mon := { s.mon with counterB := v }, wroteB := true })
  | 0x4A => onlyWord w (storeCtrc v s)
  | 0x4B => .refused .undescribedDirection
  | 0x4C => onlyDword w (storeAction d s)
  | _ => .trap ttDataAccess s

/-- The spaces beside memory that the chip implements (R131): an access in any other traps (D14). -/
def asiImplemented (asi : Asi) : Bool :=
  [0x02, 0x03, 0x04, 0x05, 0x06, 0x0C, 0x0D, 0x0E, 0x0F, 0x30, 0x31, 0x32, 0x36, 0x37, 0x38, 0x39, 0x40, 0x48, 0x49,
    0x4A, 0x4B, 0x4C].contains asi.toNat

end Sys2Proof.Machine
end

