-- ==== Sys2Proof/Machine/Access.lean ====
section
/-! DEFINITION. The access primitives every load, store and atomic uses (R150, R151, R153): alignment, translation or
special space, byte order, bytes. -/

namespace Sys2Proof.Machine

/-- The address is a multiple of the width (R155). -/
def aligned (w : Width) (a : Word) : Bool := a.toNat % bytesOf w == 0

/-- What an ASI names (R131). -/
inductive Space where
  /-- 0x08 to 0x0B: memory through the MMU (R132). -/
  | translated (instr user : Bool)
  /-- 0x20 to 0x2F: memory at `ASI[3:0] :: VA` (R171). -/
  | bypass (high : BitVec 4)
  /-- Everything else (R150, step 2). -/
  | special
deriving DecidableEq, Repr

/-- The space an ASI names. -/
def spaceOf (asi : Asi) : Space :=
  match asi.toNat with
  | 0x08 => .translated true true
  | 0x09 => .translated true false
  | 0x0A => .translated false true
  | 0x0B => .translated false false
  | _ => if asi.extractLsb' 4 4 = 2 then .bypass (asi.extractLsb' 0 4) else .special

/-- The ASI of a load or store without one (R132). -/
def dataAsi (s : State) : Asi := if s.psr.s then 0x0B else 0x0A

/-- How a doubleword is seen in little-endian order (R145): as two integer words, or as one floating-point number. -/
inductive DwordKind where
  | integer
  | float
deriving DecidableEq, Repr

/-- The bytes of a datum in the order of memory, from the order that starts at its most significant byte; and back, as
the map is its own inverse (R141, R142, R145). -/
def orderBytes (little : Bool) (k : DwordKind) (bs : List Byte) : List Byte :=
  if little then
    if bs.length = 8 ∧ k = .integer then (bs.take 4).reverse ++ (bs.drop 4).reverse else bs.reverse
  else bs

/-- The byte order of an access (R143). -/
def isLittle (t : Target) (s : State) : Bool := s.psr.de != t.rbo

/-- The datum at a target: the bytes that memory holds at its physical address, whatever its RBO bit, which chooses their
order alone. An access with RBO = 1 goes past the on-chip data cache (R148), and one with RBO = 0 never finds a stale copy
there (D29, U12). -/
def readTarget (w : Width) (k : DwordKind) (t : Target) (s : State) : BitVec 64 :=
  joinBytes (orderBytes (isLittle t s) k (Memory.readBytes s.mem t.pa.toNat (bytesOf w)))

/-- Store a datum at a target: into memory, whatever its RBO bit, so that later loads see it through either byte order (R148,
U12, D29; `readTarget_writeTarget`). -/
def writeTarget (w : Width) (k : DwordKind) (t : Target) (d : BitVec 64) (s : State) : State :=
  storeBytes t.pa (orderBytes (isLittle t s) k (splitBytes d (bytesOf w))) s

/-- Where an access to memory goes; none when MCNTL.NF has suppressed its fault. -/
def memoryTarget (sp : Space) (kind : Access) (a : Word) (s : State) : Res (Option Target) :=
  match sp with
  | .translated instr user => dataTarget { va := a, kind := kind, instr := instr, user := user } s
  | .bypass high => .ok (some { pa := high ++ a, rbo := false }) s
  | .special => .ok none s

/-- `MemRead(asi, a, n)` (R150): the datum, in the low bits. A load whose fault NF suppresses returns a free datum
(U20). -/
def memRead (asi : Asi) (w : Width) (k : DwordKind) (a : Word) (s : State) : Res (BitVec 64) :=
  if aligned w a then
    match spaceOf asi with
    | .special => loadAsi asi w a s
    | sp =>
      andThen (memoryTarget sp .load a s) fun t s1 =>
        match t with
        | some t => .ok (readTarget w k t s1) s1
        | none => .ok (freeValue s1) (drawn s1)
  else .trap ttNotAligned s

/-- `MemWrite(asi, a, n, d)` (R151). -/
def memWrite (asi : Asi) (w : Width) (k : DwordKind) (a : Word) (d : BitVec 64) (s : State) : Res Unit :=
  if aligned w a then
    match spaceOf asi with
    | .special => storeAsi asi w a d s
    | sp =>
      andThen (memoryTarget sp .store a s) fun t s1 =>
        match t with
        | some t => .ok () (writeTarget w k t d s1)
        | none => .ok () s1
  else .trap ttNotAligned s

/-- `AtomicRMW(asi, a, n, old -> d)` (R153): checked as a store, then the old datum is read and the new one stored.
Outside memory it is not described (R411). -/
def memSwap (asi : Asi) (w : Width) (a : Word) (d : BitVec 64) (s : State) : Res (BitVec 64) :=
  if aligned w a then
    match spaceOf asi with
    | .special => if asiImplemented asi then .refused .atomicRegister else .trap ttDataAccess s
    | sp =>
      andThen (memoryTarget sp .store a s) fun t s1 =>
        match t with
        | some t => .ok (readTarget w .integer t s1) (writeTarget w .integer t d s1)
        | none => .ok (freeValue s1) (drawn s1)
  else .trap ttNotAligned s

end Sys2Proof.Machine
end

