-- ==== Sys2Proof/Machine/SoftFloat.lean ====
section
/-! DEFINITION. IEEE 754 arithmetic as R551 to R556 give it, on bit patterns: operands become exact integers, the exact
result is rounded once. -/

namespace Sys2Proof.Machine

/-- A binary format: `p` is the precision with the hidden bit, `w` the width of the exponent field (R551). -/
structure Format where
  p : Nat
  w : Nat
deriving DecidableEq, Repr

def single : Format := { p := 24, w := 8 }
def double : Format := { p := 53, w := 11 }

/-- The largest exponent, which is also the bias. -/
def Format.bias (F : Format) : Int := 2 ^ (F.w - 1) - 1
/-- The exponent of one unit in the last place of a subnormal: `emin - (p - 1)`. -/
def Format.least (F : Format) : Int := 2 - F.bias - F.p
/-- The pattern of +infinity. -/
def Format.infinity (F : Format) : Nat := (2 ^ F.w - 1) * 2 ^ (F.p - 1)
/-- The sign bit as a number. -/
def Format.signBit (F : Format) (sign : Bool) : Nat := if sign then 2 ^ (F.p - 1 + F.w) else 0

/-- A value: a NaN by its fraction, infinity, zero, or `(-1)^sign * m * 2^e` with `m` not 0. -/
inductive FloatVal where
  | nan (sign : Bool) (frac : Nat)
  | inf (sign : Bool)
  | zero (sign : Bool)
  | fin (sign : Bool) (m : Nat) (e : Int)
deriving DecidableEq, Repr

/-- What an FPop computes: a bit pattern and the exception set E, in the order nv, of, uf, dz, nx from bit 4 down. -/
structure FloatRes where
  bits : Nat
  exc : BitVec 5
deriving DecidableEq, Repr

def excNv : BitVec 5 := 0x10
def excOf : BitVec 5 := 0x08
def excUf : BitVec 5 := 0x04
def excDz : BitVec 5 := 0x02
def excNx : BitVec 5 := 0x01

/-- The exception, if the condition holds. -/
def excIf (c : Bool) (e : BitVec 5) : BitVec 5 := if c then e else 0

/-- The value of a bit pattern (R551). -/
def unpack (F : Format) (x : Nat) : FloatVal :=
  let frac := x % 2 ^ (F.p - 1)
  let exp := x / 2 ^ (F.p - 1) % 2 ^ F.w
  let sign := x / 2 ^ (F.p - 1 + F.w) % 2 == 1
  if exp = 2 ^ F.w - 1 then (if frac = 0 then .inf sign else .nan sign frac)
  else if exp = 0 then (if frac = 0 then .zero sign else .fin sign frac F.least)
  else .fin sign (frac + 2 ^ (F.p - 1)) (F.least + (exp - 1 : Nat))

/-! ## Rounding (R552, R554) -/

/-- Whether the magnitude `kept`, with `rest` of `2 * half` and perhaps more left over, is rounded up in direction
`rm`. -/
def roundsUp (rm : BitVec 2) (sign : Bool) (kept rest half : Nat) (more : Bool) : Bool :=
  if rm = 0 then decide (rest > half) || (rest == half && (more || kept % 2 == 1))
  else if rm = 1 then false
  else if rm = 2 then !sign && (rest != 0 || more)
  else sign && (rest != 0 || more)

/-- R552: what an overflow delivers. -/
def overflowed (F : Format) (rm : BitVec 2) (sign : Bool) : FloatRes where
  bits :=
    F.signBit sign + (if rm = 0 ∨ (rm = 2 ∧ sign = false) ∨ (rm = 3 ∧ sign = true) then F.infinity else F.infinity - 1)
  exc := excOf ||| excNx

/-- `(-1)^sign * (m + d) * 2^e` rounded to the format, where `m` is not 0 and `d` is 0, or between 0 and 1 when `more`.
With `more`, `m` must have at least two bits more than the precision. Tininess is found before rounding (R554); `ufm`
is FSR.TEM.UFM. -/
def roundPack (F : Format) (rm : BitVec 2) (ufm sign : Bool) (m : Nat) (e : Int) (more : Bool) : FloatRes :=
  let top : Int := Nat.log2 m + e
  let q : Int := max (top - (F.p - 1 : Nat)) F.least
  let tiny := decide (top - (F.p - 1 : Nat) < F.least)
  let drop := (q - e).toNat
  let kept := m * 2 ^ (e - q).toNat / 2 ^ drop
  let rest := m * 2 ^ (e - q).toNat % 2 ^ drop
  let inexact := rest != 0 || more
  let up := if drop = 0 then false else roundsUp rm sign kept rest (2 ^ (drop - 1)) more
  let mag := (q - F.least).toNat * 2 ^ (F.p - 1) + kept + (if up then 1 else 0)
  if mag ≥ F.infinity then overflowed F rm sign
  else
    { bits := F.signBit sign + mag
      exc := excIf (tiny && (ufm || inexact)) excUf ||| excIf inexact excNx }

/-! ## NaNs (R555, R556) -/

/-- R556: the NaN of an invalid operation without a NaN operand. -/
def defaultNan (F : Format) : FloatRes := { bits := 2 ^ (F.p - 1 + F.w) - 1, exc := excNv }

/-- The NaN is signalling: its most significant fraction bit is 0. -/
def signalling (F : Format) (frac : Nat) : Bool := decide (frac < 2 ^ (F.p - 2))

/-- The quiet bit set, in the same format. -/
def quieted (F : Format) (sign : Bool) (frac : Nat) : Nat :=
  F.signBit sign + F.infinity + (if signalling F frac then frac + 2 ^ (F.p - 2) else frac)

/-- The NaN of format `F` as a quiet NaN of format `G`: the top fraction bits are kept (R555). -/
def nanTo (F G : Format) (sign : Bool) (frac : Nat) : Nat :=
  quieted G sign (if F.p ≤ G.p then frac * 2 ^ (G.p - F.p) else frac / 2 ^ (F.p - G.p))

/-- A signalling NaN operand. -/
def isSignalling (F : Format) : FloatVal → Bool
  | .nan _ frac => signalling F frac
  | _ => false

/-- The NaN result of a dyadic FPop from operands in `F` to a result in `G`, if an operand is a NaN: the second operand
first (R555). -/
def nanResult (F G : Format) (a b : FloatVal) : Option FloatRes :=
  let exc := excIf (isSignalling F a || isSignalling F b) excNv
  match a, b with
  | _, .nan s f => some { bits := nanTo F G s f, exc := exc }
  | .nan s f, _ => some { bits := nanTo F G s f, exc := exc }
  | _, _ => none

/-! ## Operations -/

/-- An infinity without exceptions. -/
def infRes (F : Format) (sign : Bool) : FloatRes := { bits := F.signBit sign + F.infinity, exc := 0 }
/-- A zero without exceptions. -/
def zeroRes (F : Format) (sign : Bool) : FloatRes := { bits := F.signBit sign, exc := 0 }

/-- A signed magnitude as an integer. -/
def signedInt (sign : Bool) (n : Nat) : Int := if sign then -(n : Int) else n

/-- The sign of an exact zero sum (R552). -/
def zeroSumSign (rm : BitVec 2) (s t : Bool) : Bool := if s = t then s else rm == 3

/-- The sum of two values without NaN (R552). -/
def sumValues (F : Format) (rm : BitVec 2) (ufm : Bool) (a b : FloatVal) : FloatRes :=
  match a, b with
  | .inf s, .inf t => if s = t then infRes F s else defaultNan F
  | .inf s, _ => infRes F s
  | _, .inf t => infRes F t
  | .zero s, .zero t => zeroRes F (zeroSumSign rm s t)
  | .zero _, .fin t m e => roundPack F rm ufm t m e false
  | .fin s m e, .zero _ => roundPack F rm ufm s m e false
  | .fin s m e, .fin t n f =>
    let g := min e f
    let sum := signedInt s (m * 2 ^ (e - g).toNat) + signedInt t (n * 2 ^ (f - g).toNat)
    if sum = 0 then zeroRes F (zeroSumSign rm s t) else roundPack F rm ufm (decide (sum < 0)) sum.natAbs g false
  | _, _ => defaultNan F

/-- The value with its sign flipped. -/
def negValue : FloatVal → FloatVal
  | .nan s f => .nan s f
  | .inf s => .inf (!s)
  | .zero s => .zero (!s)
  | .fin s m e => .fin (!s) m e

/-- FADD (R565). -/
def floatAdd (F : Format) (rm : BitVec 2) (ufm : Bool) (x y : Nat) : FloatRes :=
  let a := unpack F x
  let b := unpack F y
  (nanResult F F a b).getD (sumValues F rm ufm a b)

/-- FSUB: the sum with the second operand negated; a NaN keeps its sign (R567). -/
def floatSub (F : Format) (rm : BitVec 2) (ufm : Bool) (x y : Nat) : FloatRes :=
  let a := unpack F x
  let b := unpack F y
  (nanResult F F a b).getD (sumValues F rm ufm a (negValue b))

/-- The product of two values without NaN, rounded to `G` (R552). -/
def mulValues (G : Format) (rm : BitVec 2) (ufm : Bool) (a b : FloatVal) : FloatRes :=
  match a, b with
  | .inf _, .zero _ => defaultNan G
  | .zero _, .inf _ => defaultNan G
  | .inf s, .inf t => infRes G (s != t)
  | .inf s, .fin t _ _ => infRes G (s != t)
  | .fin s _ _, .inf t => infRes G (s != t)
  | .zero s, .zero t => zeroRes G (s != t)
  | .zero s, .fin t _ _ => zeroRes G (s != t)
  | .fin s _ _, .zero t => zeroRes G (s != t)
  | .fin s m e, .fin t n f => roundPack G rm ufm (s != t) (m * n) (e + f) false
  | _, _ => defaultNan G

/-- FMUL from `F` to `G` (R570, R572). -/
def floatMul (F G : Format) (rm : BitVec 2) (ufm : Bool) (x y : Nat) : FloatRes :=
  let a := unpack F x
  let b := unpack F y
  (nanResult F G a b).getD (mulValues G rm ufm a b)

/-- The quotient of two values without NaN (R552). -/
def divValues (F : Format) (rm : BitVec 2) (ufm : Bool) (a b : FloatVal) : FloatRes :=
  match a, b with
  | .inf _, .inf _ => defaultNan F
  | .zero _, .zero _ => defaultNan F
  | .inf s, .zero t => infRes F (s != t)
  | .inf s, .fin t _ _ => infRes F (s != t)
  | .zero s, .inf t => zeroRes F (s != t)
  | .zero s, .fin t _ _ => zeroRes F (s != t)
  | .fin s _ _, .inf t => zeroRes F (s != t)
  | .fin s _ _, .zero t => { bits := F.signBit (s != t) + F.infinity, exc := excDz }
  | .fin s m e, .fin t n f =>
    let k := 2 * F.p + 2
    roundPack F rm ufm (s != t) (m * 2 ^ k / n) (e - f - k) (m * 2 ^ k % n != 0)
  | _, _ => defaultNan F

/-- FDIV (R575). -/
def floatDiv (F : Format) (rm : BitVec 2) (ufm : Bool) (x y : Nat) : FloatRes :=
  let a := unpack F x
  let b := unpack F y
  (nanResult F F a b).getD (divValues F rm ufm a b)

/-- The largest `r + k` with `k < 2^n` whose square is at most `x`. -/
def rootBits (x : Nat) : Nat → Nat → Nat
  | 0, r => r
  | n + 1, r => rootBits x n (if (r + 2 ^ n) * (r + 2 ^ n) ≤ x then r + 2 ^ n else r)

/-- FSQRT (R578). -/
def floatSqrt (F : Format) (rm : BitVec 2) (ufm : Bool) (x : Nat) : FloatRes :=
  match unpack F x with
  | .nan s f => { bits := quieted F s f, exc := excIf (signalling F f) excNv }
  | .zero s => zeroRes F s
  | .inf false => infRes F false
  | .inf true => defaultNan F
  | .fin true _ _ => defaultNan F
  | .fin false m e =>
    let k := 2 * F.p + 4 + (e % 2).toNat
    let n := m * 2 ^ k
    let r := rootBits n (2 * F.p + 4) 0
    roundPack F rm ufm false r ((e - k) / 2) (r * r != n)

/-- A format conversion, FsTOd or FdTOs (R588, R589). -/
def floatConvert (F G : Format) (rm : BitVec 2) (ufm : Bool) (x : Nat) : FloatRes :=
  match unpack F x with
  | .nan s f => { bits := nanTo F G s f, exc := excIf (signalling F f) excNv }
  | .inf s => infRes G s
  | .zero s => zeroRes G s
  | .fin s m e => roundPack G rm ufm s m e false

/-- FiTOs or FiTOd (R582, R583). -/
def floatOfInt (G : Format) (rm : BitVec 2) (ufm : Bool) (x : Word) : FloatRes :=
  if x = 0 then zeroRes G false else roundPack G rm ufm x.msb x.toInt.natAbs 0 false

/-- The integer FsTOi or FdTOi saturates to (R585, D4). -/
def saturated (sign : Bool) : FloatRes := { bits := if sign then 0x80000000 else 0x7FFFFFFF, exc := excNv }

/-- FsTOi or FdTOi: rounding toward zero (R585). -/
def floatToInt (F : Format) (x : Nat) : FloatRes :=
  match unpack F x with
  | .nan s _ => saturated s
  | .inf s => saturated s
  | .zero _ => { bits := 0, exc := 0 }
  | .fin s m e =>
    let n := m * 2 ^ e.toNat / 2 ^ (-e).toNat
    let v := signedInt s n
    if v > 2147483647 ∨ v < -2147483648 then saturated s
    else
      { bits := (BitVec.ofInt 32 v).toNat
        exc := excIf (m * 2 ^ e.toNat % 2 ^ (-e).toNat != 0) excNx }

/-- A pattern without NaN as an integer in the order of the values: both zeros are 0. -/
def orderKey (F : Format) (x : Nat) : Int :=
  signedInt (x / 2 ^ (F.p - 1 + F.w) % 2 == 1) (x % 2 ^ (F.p - 1 + F.w))

/-- The pattern is a NaN. -/
def isNan (F : Format) (x : Nat) : Bool :=
  match unpack F x with
  | .nan _ _ => true
  | _ => false

/-- A comparison: fcc, and E (R592, R594). `quietToo` is FCMPE. -/
def floatCompare (F : Format) (quietToo : Bool) (x y : Nat) : BitVec 2 × BitVec 5 :=
  if isNan F x || isNan F y then
    (3, excIf (quietToo || isSignalling F (unpack F x) || isSignalling F (unpack F y)) excNv)
  else if orderKey F x = orderKey F y then (0, 0)
  else if orderKey F x < orderKey F y then (1, 0)
  else (2, 0)

end Sys2Proof.Machine
end

