-- ==== Sys2Proof/Machine/Float.lean ====
section
/-! DEFINITION. Floating-point operates, branches, loads and stores (44_floating_point.md, 42_control_transfer_and_windows.md
section 7, 41_load_store.md section 4): the modes of the FPU, deferred exceptions, delivery of results. -/

namespace Sys2Proof.Machine

/-! ## Modes and deferred traps (R550, R620 to R623) -/

/-- The trap of a pending exception: the FPU enters fp_exception mode (R621), or fp_execute mode when the queue is empty
(D40). -/
def deliverPending (s : State) : Result :=
  .next (takeTrapWith ttFpException s { s with fpMode := if s.fq.isEmpty then .execute else .exception })

/-- A sequence error (R622). On an empty queue the FPU is left in fp_execute mode (D40). -/
def sequenceError (s : State) : Result :=
  .next (takeTrapWith ttFpException s
    { s with fsr := { s.fsr with ftt := 4 }, fpMode := if s.fq.isEmpty then .execute else s.fpMode })

/-- The checks of an FPop or an FBfcc, in order (R550, R442). -/
def fpGate (s : State) (body : Result) : Result :=
  if s.psr.ef = false then .next (takeTrap ttFpDisabled s)
  else
    match s.fpMode with
    | .exceptionPending => deliverPending s
    | .exception => sequenceError s
    | .execute => body

/-- An FPop that has raised an exception is alone in the queue, and the FPU waits for the next floating-point
instruction (R553, R612). -/
def enqueue (i : Instr) (s : State) : State := { s with fq := [(s.pc, encode i)], fpMode := .exceptionPending }

/-- An FPop the hardware does not implement (R612, R613). -/
def unimplemented (i : Instr) (s : State) : Result :=
  fpGate s (.next (advance (enqueue i { s with fsr := { s.fsr with ftt := 3 } })))

/-- The first member of a trapping set, in the order nv, of, uf, dz, nx (R553). -/
def firstExc (t : BitVec 5) : BitVec 5 :=
  if t.getLsbD 4 then excNv
  else if t.getLsbD 3 then excOf
  else if t.getLsbD 2 then excUf
  else if t.getLsbD 1 then excDz
  else excNx

/-- R553: without an enabled exception the result is written (`write`) and the FSR accumulates E; with one, the FPop is
queued and the result dropped. -/
def deliver (i : Instr) (exc : BitVec 5) (write : State → State) (s : State) : State :=
  if exc &&& s.fsr.tem = 0 then
    let t := write s
    { t with fsr := { t.fsr with cexc := exc, aexc := t.fsr.aexc ||| exc, ftt := 0 } }
  else enqueue i { s with fsr := { s.fsr with cexc := firstExc (exc &&& s.fsr.tem), ftt := 1 } }

/-- An FPop with a result. -/
def fpop (i : Instr) (exc : BitVec 5) (write : State → State) (s : State) : Result :=
  fpGate s (.next (advance (deliver i exc write s)))

/-- FSR.TEM.UFM. -/
def underflowTraps (s : State) : Bool := s.fsr.tem.getLsbD 2

/-- A single result to `f[rd]`. -/
def fpopSingle (i : Instr) (rd : Reg) (r : FloatRes) (s : State) : Result :=
  fpop i r.exc (writeF rd (BitVec.ofNat 32 r.bits)) s

/-- A double result to `fd[rd]`. -/
def fpopDouble (i : Instr) (rd : Reg) (r : FloatRes) (s : State) : Result :=
  fpop i r.exc (writeD rd (BitVec.ofNat 64 r.bits)) s

/-- A compare writes fcc (R592). -/
def fpopCompare (i : Instr) (r : BitVec 2 × BitVec 5) (s : State) : Result :=
  fpop i r.2 (fun t => { t with fsr := { t.fsr with fcc := r.1 } }) s

/-- A single operand as a number. -/
def opS (r : Reg) (s : State) : Nat := (readF r s).toNat
/-- A double operand as a number. -/
def opD (r : Reg) (s : State) : Nat := (readD r s).toNat

/-- A dyadic FPop on singles. -/
def dyadicS (f : Format → BitVec 2 → Bool → Nat → Nat → FloatRes) (i : Instr) (rd rs1 rs2 : Reg) (s : State) : Result :=
  fpopSingle i rd (f single s.fsr.rd (underflowTraps s) (opS rs1 s) (opS rs2 s)) s
/-- A dyadic FPop on doubles. -/
def dyadicD (f : Format → BitVec 2 → Bool → Nat → Nat → FloatRes) (i : Instr) (rd rs1 rs2 : Reg) (s : State) : Result :=
  fpopDouble i rd (f double s.fsr.rd (underflowTraps s) (opD rs1 s) (opD rs2 s)) s

/-! ## FPops -/

/-- FMOVs, R560. -/
def execFmovs (rd rs2 : Reg) (s : State) : Result := fpop (.fmovs rd rs2) 0 (writeF rd (readF rs2 s)) s
/-- FNEGs, R561. -/
def execFnegs (rd rs2 : Reg) (s : State) : Result := fpop (.fnegs rd rs2) 0 (writeF rd (readF rs2 s ^^^ 0x80000000)) s
/-- FABSs, R562. -/
def execFabss (rd rs2 : Reg) (s : State) : Result := fpop (.fabss rd rs2) 0 (writeF rd (readF rs2 s &&& 0x7FFFFFFF)) s
/-- FADDs, R565. -/
def execFadds (rd rs1 rs2 : Reg) (s : State) : Result := dyadicS floatAdd (.fadds rd rs1 rs2) rd rs1 rs2 s
/-- FADDd, R566. -/
def execFaddd (rd rs1 rs2 : Reg) (s : State) : Result := dyadicD floatAdd (.faddd rd rs1 rs2) rd rs1 rs2 s
/-- FSUBs, R567. -/
def execFsubs (rd rs1 rs2 : Reg) (s : State) : Result := dyadicS floatSub (.fsubs rd rs1 rs2) rd rs1 rs2 s
/-- FSUBd, R568. -/
def execFsubd (rd rs1 rs2 : Reg) (s : State) : Result := dyadicD floatSub (.fsubd rd rs1 rs2) rd rs1 rs2 s
/-- FDIVs, R575. -/
def execFdivs (rd rs1 rs2 : Reg) (s : State) : Result := dyadicS floatDiv (.fdivs rd rs1 rs2) rd rs1 rs2 s
/-- FDIVd, R576. -/
def execFdivd (rd rs1 rs2 : Reg) (s : State) : Result := dyadicD floatDiv (.fdivd rd rs1 rs2) rd rs1 rs2 s
/-- FMULs, R570. -/
def execFmuls (rd rs1 rs2 : Reg) (s : State) : Result :=
  dyadicS (fun F => floatMul F F) (.fmuls rd rs1 rs2) rd rs1 rs2 s
/-- FMULd, R571. -/
def execFmuld (rd rs1 rs2 : Reg) (s : State) : Result :=
  dyadicD (fun F => floatMul F F) (.fmuld rd rs1 rs2) rd rs1 rs2 s
/-- FsMULd, R572. -/
def execFsmuld (rd rs1 rs2 : Reg) (s : State) : Result :=
  fpopDouble (.fsmuld rd rs1 rs2) rd (floatMul single double s.fsr.rd (underflowTraps s) (opS rs1 s) (opS rs2 s)) s
/-- FSQRTs, R578. -/
def execFsqrts (rd rs2 : Reg) (s : State) : Result :=
  fpopSingle (.fsqrts rd rs2) rd (floatSqrt single s.fsr.rd (underflowTraps s) (opS rs2 s)) s
/-- FSQRTd, R579. -/
def execFsqrtd (rd rs2 : Reg) (s : State) : Result :=
  fpopDouble (.fsqrtd rd rs2) rd (floatSqrt double s.fsr.rd (underflowTraps s) (opD rs2 s)) s
/-- FiTOs, R582. -/
def execFitos (rd rs2 : Reg) (s : State) : Result :=
  fpopSingle (.fitos rd rs2) rd (floatOfInt single s.fsr.rd (underflowTraps s) (readF rs2 s)) s
/-- FiTOd, R583. -/
def execFitod (rd rs2 : Reg) (s : State) : Result :=
  fpopDouble (.fitod rd rs2) rd (floatOfInt double s.fsr.rd (underflowTraps s) (readF rs2 s)) s
/-- FsTOi, R585. -/
def execFstoi (rd rs2 : Reg) (s : State) : Result := fpopSingle (.fstoi rd rs2) rd (floatToInt single (opS rs2 s)) s
/-- FdTOi, R586. -/
def execFdtoi (rd rs2 : Reg) (s : State) : Result :=
  fpopSingle (.fdtoi rd rs2) rd (floatToInt double (opD rs2 s)) s
/-- FsTOd, R588. -/
def execFstod (rd rs2 : Reg) (s : State) : Result :=
  fpopDouble (.fstod rd rs2) rd (floatConvert single double s.fsr.rd (underflowTraps s) (opS rs2 s)) s
/-- FdTOs, R589. -/
def execFdtos (rd rs2 : Reg) (s : State) : Result :=
  fpopSingle (.fdtos rd rs2) rd (floatConvert double single s.fsr.rd (underflowTraps s) (opD rs2 s)) s
/-- FCMPs, R592. -/
def execFcmps (rs1 rs2 : Reg) (s : State) : Result :=
  fpopCompare (.fcmps rs1 rs2) (floatCompare single false (opS rs1 s) (opS rs2 s)) s
/-- FCMPd, R593. -/
def execFcmpd (rs1 rs2 : Reg) (s : State) : Result :=
  fpopCompare (.fcmpd rs1 rs2) (floatCompare double false (opD rs1 s) (opD rs2 s)) s
/-- FCMPEs, R594. -/
def execFcmpes (rs1 rs2 : Reg) (s : State) : Result :=
  fpopCompare (.fcmpes rs1 rs2) (floatCompare single true (opS rs1 s) (opS rs2 s)) s
/-- FCMPEd, R595. -/
def execFcmped (rs1 rs2 : Reg) (s : State) : Result :=
  fpopCompare (.fcmped rs1 rs2) (floatCompare double true (opD rs1 s) (opD rs2 s)) s

/-! ## Unimplemented FPops: quad precision and unallocated `opf` (R598 to R613) -/

/-- Faddq, R598. -/
def execFaddq (rd rs1 rs2 : Reg) (s : State) : Result := unimplemented (.faddq rd rs1 rs2) s
/-- Fsubq, R599. -/
def execFsubq (rd rs1 rs2 : Reg) (s : State) : Result := unimplemented (.fsubq rd rs1 rs2) s
/-- Fmulq, R600. -/
def execFmulq (rd rs1 rs2 : Reg) (s : State) : Result := unimplemented (.fmulq rd rs1 rs2) s
/-- Fdivq, R601. -/
def execFdivq (rd rs1 rs2 : Reg) (s : State) : Result := unimplemented (.fdivq rd rs1 rs2) s
/-- Fdmulq, R603. -/
def execFdmulq (rd rs1 rs2 : Reg) (s : State) : Result := unimplemented (.fdmulq rd rs1 rs2) s
/-- Fsqrtq, R602. -/
def execFsqrtq (rd rs2 : Reg) (s : State) : Result := unimplemented (.fsqrtq rd rs2) s
/-- Fitoq, R604. -/
def execFitoq (rd rs2 : Reg) (s : State) : Result := unimplemented (.fitoq rd rs2) s
/-- Fstoq, R605. -/
def execFstoq (rd rs2 : Reg) (s : State) : Result := unimplemented (.fstoq rd rs2) s
/-- Fdtoq, R606. -/
def execFdtoq (rd rs2 : Reg) (s : State) : Result := unimplemented (.fdtoq rd rs2) s
/-- Fqtoi, R607. -/
def execFqtoi (rd rs2 : Reg) (s : State) : Result := unimplemented (.fqtoi rd rs2) s
/-- Fqtos, R608. -/
def execFqtos (rd rs2 : Reg) (s : State) : Result := unimplemented (.fqtos rd rs2) s
/-- Fqtod, R609. -/
def execFqtod (rd rs2 : Reg) (s : State) : Result := unimplemented (.fqtod rd rs2) s
/-- Fcmpq, R610. -/
def execFcmpq (rs1 rs2 : Reg) (s : State) : Result := unimplemented (.fcmpq rs1 rs2) s
/-- Fcmpeq, R611. -/
def execFcmpeq (rs1 rs2 : Reg) (s : State) : Result := unimplemented (.fcmpeq rs1 rs2) s
/-- FPop1 with an unallocated `opf`, R613 (D21). -/
def execFpop1Other (rd rs1 : Reg) (opf : BitVec 9) (rs2 : Reg) (s : State) : Result :=
  unimplemented (.fpop1Other rd rs1 opf rs2) s
/-- FPop2 with an unallocated `opf`, R613 (D21). -/
def execFpop2Other (rd rs1 : Reg) (opf : BitVec 9) (rs2 : Reg) (s : State) : Result :=
  unimplemented (.fpop2Other rd rs1 opf rs2) s

/-! ## FBfcc (R442) -/

/-- The relation fcc states is one of the listed ones. -/
def fccIn (l : List (BitVec 2)) (s : State) : Bool := l.contains s.fsr.fcc

/-- FBN, R504. -/
def execFbn (a : Bool) (disp22 : BitVec 22) (s : State) : Result := fpGate s (.next (branchIf false a disp22 s))
/-- FBNE, R505. -/
def execFbne (a : Bool) (disp22 : BitVec 22) (s : State) : Result :=
  fpGate s (.next (branchIf (fccIn [fccL, fccG, fccU] s) a disp22 s))
/-- FBLG, R506. -/
def execFblg (a : Bool) (disp22 : BitVec 22) (s : State) : Result :=
  fpGate s (.next (branchIf (fccIn [fccL, fccG] s) a disp22 s))
/-- FBUL, R507. -/
def execFbul (a : Bool) (disp22 : BitVec 22) (s : State) : Result :=
  fpGate s (.next (branchIf (fccIn [fccU, fccL] s) a disp22 s))
/-- FBL, R508. -/
def execFbl (a : Bool) (disp22 : BitVec 22) (s : State) : Result :=
  fpGate s (.next (branchIf (fccIn [fccL] s) a disp22 s))
/-- FBUG, R509. -/
def execFbug (a : Bool) (disp22 : BitVec 22) (s : State) : Result :=
  fpGate s (.next (branchIf (fccIn [fccU, fccG] s) a disp22 s))
/-- FBG, R510. -/
def execFbg (a : Bool) (disp22 : BitVec 22) (s : State) : Result :=
  fpGate s (.next (branchIf (fccIn [fccG] s) a disp22 s))
/-- FBU, R511. -/
def execFbu (a : Bool) (disp22 : BitVec 22) (s : State) : Result :=
  fpGate s (.next (branchIf (fccIn [fccU] s) a disp22 s))
/-- FBA, R512. -/
def execFba (a : Bool) (disp22 : BitVec 22) (s : State) : Result := fpGate s (.next (branchAlways a disp22 s))
/-- FBE, R513. -/
def execFbe (a : Bool) (disp22 : BitVec 22) (s : State) : Result :=
  fpGate s (.next (branchIf (fccIn [fccE] s) a disp22 s))
/-- FBUE, R514. -/
def execFbue (a : Bool) (disp22 : BitVec 22) (s : State) : Result :=
  fpGate s (.next (branchIf (fccIn [fccU, fccE] s) a disp22 s))
/-- FBGE, R515. -/
def execFbge (a : Bool) (disp22 : BitVec 22) (s : State) : Result :=
  fpGate s (.next (branchIf (fccIn [fccG, fccE] s) a disp22 s))
/-- FBUGE, R516. -/
def execFbuge (a : Bool) (disp22 : BitVec 22) (s : State) : Result :=
  fpGate s (.next (branchIf (fccIn [fccU, fccG, fccE] s) a disp22 s))
/-- FBLE, R517. -/
def execFble (a : Bool) (disp22 : BitVec 22) (s : State) : Result :=
  fpGate s (.next (branchIf (fccIn [fccL, fccE] s) a disp22 s))
/-- FBULE, R518. -/
def execFbule (a : Bool) (disp22 : BitVec 22) (s : State) : Result :=
  fpGate s (.next (branchIf (fccIn [fccU, fccL, fccE] s) a disp22 s))
/-- FBO, R519. -/
def execFbo (a : Bool) (disp22 : BitVec 22) (s : State) : Result :=
  fpGate s (.next (branchIf (fccIn [fccE, fccL, fccG] s) a disp22 s))

/-! ## Loads and stores (R371, R395 to R404) -/

/-- The checks of a floating-point load or store before its access: EF, alignment, then the mode of the FPU. A store may
run in fp_exception mode, a load is a sequence error there (R371, R622). -/
def fpMemGate (isStore : Bool) (w : Width) (a : Word) (s : State) (body : Result) : Result :=
  if s.psr.ef = false then .next (takeTrap ttFpDisabled s)
  else if aligned w a = false then .next (takeTrap ttNotAligned s)
  else
    match s.fpMode with
    | .exceptionPending => deliverPending s
    | .exception => if isStore then body else sequenceError s
    | .execute => body

/-- A floating-point load: what to do with the datum is `put`. -/
def fpLoad (w : Width) (put : BitVec 64 → State → State) (a : Word) (s : State) : Result :=
  fpMemGate false w a s
    (finish s (andThen (memRead (dataAsi s) w .float a s) fun d t => .ok () (advance (put d t))))

/-- A floating-point store; `after` is what else it does. -/
def fpStore (w : Width) (k : DwordKind) (d : BitVec 64) (after : State → State) (a : Word) (s : State) : Result :=
  fpMemGate true w a s
    (finish s (andThen (memWrite (dataAsi s) w k a d s) fun _ t => .ok () (advance (after t))))

/-- LDF, R395. -/
def execLdf (rd rs1 : Reg) (o : Opnd2) (s : State) : Result :=
  fpLoad .word (fun d => writeF rd (d.extractLsb' 0 32)) (address rs1 o s) s
/-- LDDF, R396. -/
def execLddf (rd rs1 : Reg) (o : Opnd2) (s : State) : Result :=
  fpLoad .dword (writeD rd) (address rs1 o s) s
/-- LDFSR, R397. -/
def execLdfsr (_rd rs1 : Reg) (o : Opnd2) (s : State) : Result :=
  fpLoad .word (fun d t => { t with fsr := fsrLoad (d.extractLsb' 0 32) t.fsr }) (address rs1 o s) s
/-- STF, R400. -/
def execStf (rd rs1 : Reg) (o : Opnd2) (s : State) : Result :=
  fpStore .word .float ((readF rd s).setWidth 64) id (address rs1 o s) s
/-- STDF, R401. -/
def execStdf (rd rs1 : Reg) (o : Opnd2) (s : State) : Result :=
  fpStore .dword .float (readD rd s) id (address rs1 o s) s
/-- STFSR, R402: ftt is cleared once the FSR is stored. -/
def execStfsr (_rd rs1 : Reg) (o : Opnd2) (s : State) : Result :=
  fpStore .word .float ((fsrWord s).setWidth 64) (fun t => { t with fsr := { t.fsr with ftt := 0 } }) (address rs1 o s) s

/-- The queue without its front entry; when it is empty the FPU executes again (R403, R623). -/
def dequeue (s : State) : State :=
  { s with fq := s.fq.tail, fpMode := if s.fq.tail.isEmpty then .execute else s.fpMode }

/-- STDFQ, R403: privileged; an empty queue is a sequence error, after which the FPU is in fp_execute mode (D40). -/
def execStdfq (_rd rs1 : Reg) (o : Opnd2) (s : State) : Result :=
  privileged s
    (match s.fq with
     | [] => fpMemGate true .dword (address rs1 o s) s (sequenceError s)
     | (a, w) :: _ => fpStore .dword .integer (a ++ w) dequeue (address rs1 o s) s)

end Sys2Proof.Machine
end

