-- ==== Sys2Proof/Machine/Integer.lean ====
section
/-! DEFINITION. Integer arithmetic, logic, shifts, multiply and divide (40_integer_arithmetic.md). -/

namespace Sys2Proof.Machine

/-! ## Shared forms (R280) -/

/-- `x[rd] <- f(x[rs1], opnd2)`; icc unchanged. -/
def alu (f : Word → Word → Word) (rd rs1 : Reg) (o : Opnd2) (s : State) : Result :=
  .next (advance (writeReg rd (f (readReg rs1 s) (opnd2 o s)) s))

/-- `x[rd] <- f(x[rs1], opnd2)` and icc from the operands and the result. -/
def aluCc (f : Word → Word → Word) (icc : Word → Word → Word → Icc) (rd rs1 : Reg) (o : Opnd2) (s : State) : Result :=
  let a := readReg rs1 s
  let b := opnd2 o s
  .next (advance (setIcc (icc a b (f a b)) (writeReg rd (f a b) s)))

/-- As `aluCc`, but where V would be 1 the instruction traps tag_overflow and writes nothing (R309). -/
def aluTrap (f : Word → Word → Word) (icc : Word → Word → Word → Icc) (rd rs1 : Reg) (o : Opnd2) (s : State) :
    Result :=
  let a := readReg rs1 s
  let b := opnd2 o s
  if (icc a b (f a b)).v then .next (takeTrap ttTagOverflow s)
  else .next (advance (setIcc (icc a b (f a b)) (writeReg rd (f a b) s)))

/-- The carry as a word. -/
def carryIn (s : State) : Word := (BitVec.ofBool s.psr.c).setWidth 32

/-- icc of a logical operation or of the low word of a product (R290, R316). -/
def logicIcc (_ _ r : Word) : Icc := plainIcc r false

/-- A shift: `x[rd] <- f(x[rs1], count)` (R301). -/
def shift (f : Word → Nat → Word) (rd rs1 : Reg) (n : ShCount) (s : State) : Result :=
  .next (advance (writeReg rd (f (readReg rs1 s) (shiftCount n s)) s))

/-- A multiply: `Y` takes the high word of the product, `x[rd]` the low one (R315). -/
def multiply (f : Word → Word → BitVec 64) (rd rs1 : Reg) (o : Opnd2) (s : State) : State :=
  let p := f (readReg rs1 s) (opnd2 o s)
  { writeReg rd (p.extractLsb' 0 32) s with y := p.extractLsb' 32 32 }

/-- The low word of the product (R316). -/
def productLow (f : Word → Word → BitVec 64) (rs1 : Reg) (o : Opnd2) (s : State) : Word :=
  (f (readReg rs1 s) (opnd2 o s)).extractLsb' 0 32

/-- The unsigned 64-bit product (R315). -/
def productU (a b : Word) : BitVec 64 := a.setWidth 64 * b.setWidth 64
/-- The signed 64-bit product (R317). -/
def productS (a b : Word) : BitVec 64 := a.signExtend 64 * b.signExtend 64

/-- A quotient: the word and whether it overflowed. -/
structure Quotient where
  r : Word
  ov : Bool
deriving DecidableEq, Repr

/-- R325: the unsigned quotient of `y :: a` by `b`, capped. -/
def quotientU (y a b : Word) : Quotient :=
  let q := (y ++ a).toNat / b.toNat
  if q > 0xFFFFFFFF then { r := 0xFFFFFFFF, ov := true } else { r := BitVec.ofNat 32 q, ov := false }

/-- R327: the signed quotient of `y :: a` by `b`, rounded toward zero and capped. -/
def quotientS (y a b : Word) : Quotient :=
  let q := Int.tdiv (y ++ a).toInt b.toInt
  if q > 2147483647 then { r := 0x7FFFFFFF, ov := true }
  else if q < -2147483648 then { r := 0x80000000, ov := true }
  else { r := BitVec.ofInt 32 q, ov := false }

/-- R331: the unsigned dividend does not fit 52 bits. -/
def dividendWideU (y : Word) : Bool := y.extractLsb' 20 12 != 0
/-- R331: the signed dividend does not fit 52 bits. -/
def dividendWideS (y : Word) : Bool :=
  !((y.extractLsb' 20 12 == 0 && !y.getLsbD 19) || (y.extractLsb' 20 12 == 0xFFF && y.getLsbD 19))

/-- A divide: the traps of R325, R330 and R332 first, then the quotient goes on. -/
def divide (wide : Word → Bool) (q : Word → Word → Word → Quotient) (rs1 : Reg) (o : Opnd2) (s : State) :
    Res Quotient :=
  if wide s.y then .trap ttIllegal s
  else if opnd2 o s = 0 then .trap ttDivisionByZero s
  else .ok (q s.y (readReg rs1 s) (opnd2 o s)) s

/-- A divide that leaves icc. -/
def divPlain (wide : Word → Bool) (q : Word → Word → Word → Quotient) (rd rs1 : Reg) (o : Opnd2) (s : State) :
    Result :=
  finish s (andThen (divide wide q rs1 o s) fun x t => .ok () (advance (writeReg rd x.r t)))

/-- A divide that writes icc (R326). -/
def divCc (wide : Word → Bool) (q : Word → Word → Word → Quotient) (rd rs1 : Reg) (o : Opnd2) (s : State) : Result :=
  finish s (andThen (divide wide q rs1 o s) fun x t => .ok () (advance (setIcc (plainIcc x.r x.ov) (writeReg rd x.r t))))

/-! ## The instructions -/

/-- ADD, R281. -/
def execAdd (rd rs1 : Reg) (o : Opnd2) (s : State) : Result := alu (fun a b => a + b) rd rs1 o s
/-- ADDcc, R282. -/
def execAddcc (rd rs1 : Reg) (o : Opnd2) (s : State) : Result := aluCc (fun a b => a + b) addIcc rd rs1 o s
/-- ADDX, R283. -/
def execAddx (rd rs1 : Reg) (o : Opnd2) (s : State) : Result := alu (fun a b => a + b + carryIn s) rd rs1 o s
/-- ADDXcc, R284. -/
def execAddxcc (rd rs1 : Reg) (o : Opnd2) (s : State) : Result := aluCc (fun a b => a + b + carryIn s) addIcc rd rs1 o s
/-- SUB, R285. -/
def execSub (rd rs1 : Reg) (o : Opnd2) (s : State) : Result := alu (fun a b => a - b) rd rs1 o s
/-- SUBcc, R286. -/
def execSubcc (rd rs1 : Reg) (o : Opnd2) (s : State) : Result := aluCc (fun a b => a - b) subIcc rd rs1 o s
/-- SUBX, R287. -/
def execSubx (rd rs1 : Reg) (o : Opnd2) (s : State) : Result := alu (fun a b => a - b - carryIn s) rd rs1 o s
/-- SUBXcc, R288. -/
def execSubxcc (rd rs1 : Reg) (o : Opnd2) (s : State) : Result := aluCc (fun a b => a - b - carryIn s) subIcc rd rs1 o s
/-- AND, R289. -/
def execAnd (rd rs1 : Reg) (o : Opnd2) (s : State) : Result := alu (fun a b => a &&& b) rd rs1 o s
/-- ANDcc, R290. -/
def execAndcc (rd rs1 : Reg) (o : Opnd2) (s : State) : Result := aluCc (fun a b => a &&& b) logicIcc rd rs1 o s
/-- ANDN, R291. -/
def execAndn (rd rs1 : Reg) (o : Opnd2) (s : State) : Result := alu (fun a b => a &&& ~~~b) rd rs1 o s
/-- ANDNcc, R292. -/
def execAndncc (rd rs1 : Reg) (o : Opnd2) (s : State) : Result := aluCc (fun a b => a &&& ~~~b) logicIcc rd rs1 o s
/-- OR, R293. -/
def execOr (rd rs1 : Reg) (o : Opnd2) (s : State) : Result := alu (fun a b => a ||| b) rd rs1 o s
/-- ORcc, R294. -/
def execOrcc (rd rs1 : Reg) (o : Opnd2) (s : State) : Result := aluCc (fun a b => a ||| b) logicIcc rd rs1 o s
/-- ORN, R295. -/
def execOrn (rd rs1 : Reg) (o : Opnd2) (s : State) : Result := alu (fun a b => a ||| ~~~b) rd rs1 o s
/-- ORNcc, R296. -/
def execOrncc (rd rs1 : Reg) (o : Opnd2) (s : State) : Result := aluCc (fun a b => a ||| ~~~b) logicIcc rd rs1 o s
/-- XOR, R297. -/
def execXor (rd rs1 : Reg) (o : Opnd2) (s : State) : Result := alu (fun a b => a ^^^ b) rd rs1 o s
/-- XORcc, R298. -/
def execXorcc (rd rs1 : Reg) (o : Opnd2) (s : State) : Result := aluCc (fun a b => a ^^^ b) logicIcc rd rs1 o s
/-- XNOR, R299. -/
def execXnor (rd rs1 : Reg) (o : Opnd2) (s : State) : Result := alu (fun a b => ~~~(a ^^^ b)) rd rs1 o s
/-- XNORcc, R300. -/
def execXnorcc (rd rs1 : Reg) (o : Opnd2) (s : State) : Result := aluCc (fun a b => ~~~(a ^^^ b)) logicIcc rd rs1 o s
/-- SLL, R301. -/
def execSll (rd rs1 : Reg) (n : ShCount) (s : State) : Result := shift (fun a n => a <<< n) rd rs1 n s
/-- SRL, R302. -/
def execSrl (rd rs1 : Reg) (n : ShCount) (s : State) : Result := shift (fun a n => a >>> n) rd rs1 n s
/-- SRA, R303. -/
def execSra (rd rs1 : Reg) (n : ShCount) (s : State) : Result := shift (fun a n => a.sshiftRight n) rd rs1 n s
/-- SETHI, R305. -/
def execSethi (rd : Reg) (imm22 : BitVec 22) (s : State) : Result := .next (advance (writeReg rd (imm22 ++ 0#10) s))
/-- NOP, R306. -/
def execNop (s : State) : Result := .next (advance s)
/-- TADDcc, R307. -/
def execTaddcc (rd rs1 : Reg) (o : Opnd2) (s : State) : Result := aluCc (fun a b => a + b) taggedAddIcc rd rs1 o s
/-- TSUBcc, R308. -/
def execTsubcc (rd rs1 : Reg) (o : Opnd2) (s : State) : Result := aluCc (fun a b => a - b) taggedSubIcc rd rs1 o s
/-- TADDccTV, R309. -/
def execTaddcctv (rd rs1 : Reg) (o : Opnd2) (s : State) : Result := aluTrap (fun a b => a + b) taggedAddIcc rd rs1 o s
/-- TSUBccTV, R310. -/
def execTsubcctv (rd rs1 : Reg) (o : Opnd2) (s : State) : Result := aluTrap (fun a b => a - b) taggedSubIcc rd rs1 o s
/-- MULScc, R311: one step of a shift-and-add multiply; every read is of the state before it. -/
def execMulscc (rd rs1 : Reg) (o : Opnd2) (s : State) : Result :=
  let a := readReg rs1 s
  let op1 : Word := BitVec.ofBool (s.psr.n != s.psr.v) ++ a.extractLsb' 1 31
  let op2 : Word := if s.y.getLsbD 0 then opnd2 o s else 0
  let r := op1 + op2
  .next (advance { setIcc (addIcc op1 op2 r) (writeReg rd r s) with
    y := BitVec.ofBool (a.getLsbD 0) ++ s.y.extractLsb' 1 31 })
/-- UMUL, R315. -/
def execUmul (rd rs1 : Reg) (o : Opnd2) (s : State) : Result := .next (advance (multiply productU rd rs1 o s))
/-- UMULcc, R316. -/
def execUmulcc (rd rs1 : Reg) (o : Opnd2) (s : State) : Result :=
  .next (advance (setIcc (plainIcc (productLow productU rs1 o s) false) (multiply productU rd rs1 o s)))
/-- SMUL, R317. -/
def execSmul (rd rs1 : Reg) (o : Opnd2) (s : State) : Result := .next (advance (multiply productS rd rs1 o s))
/-- SMULcc, R318. -/
def execSmulcc (rd rs1 : Reg) (o : Opnd2) (s : State) : Result :=
  .next (advance (setIcc (plainIcc (productLow productS rs1 o s) false) (multiply productS rd rs1 o s)))
/-- UDIV, R325. -/
def execUdiv (rd rs1 : Reg) (o : Opnd2) (s : State) : Result := divPlain dividendWideU quotientU rd rs1 o s
/-- UDIVcc, R326. -/
def execUdivcc (rd rs1 : Reg) (o : Opnd2) (s : State) : Result := divCc dividendWideU quotientU rd rs1 o s
/-- SDIV, R327. -/
def execSdiv (rd rs1 : Reg) (o : Opnd2) (s : State) : Result := divPlain dividendWideS quotientS rd rs1 o s
/-- SDIVcc, R328. -/
def execSdivcc (rd rs1 : Reg) (o : Opnd2) (s : State) : Result := divCc dividendWideS quotientS rd rs1 o s

end Sys2Proof.Machine
end

