-- ==== Sys2Proof/Machine/LoadStore.lean ====
section
/-! DEFINITION. Integer loads, stores and atomics, plain and in alternate spaces (41_load_store.md). -/

namespace Sys2Proof.Machine

/-! ## Shared forms (R370, R371) -/

/-- The datum of a byte load, sign- or zero-extended, and of the wider loads. -/
def signByte (d : BitVec 64) : Word := (d.extractLsb' 0 8).signExtend 32
def zeroByte (d : BitVec 64) : Word := (d.extractLsb' 0 8).setWidth 32
def signHalf (d : BitVec 64) : Word := (d.extractLsb' 0 16).signExtend 32
def zeroHalf (d : BitVec 64) : Word := (d.extractLsb' 0 16).setWidth 32
def lowWord (d : BitVec 64) : Word := d.extractLsb' 0 32
def highWord (d : BitVec 64) : Word := d.extractLsb' 32 32

/-- `x[rd] <- ext(MemRead(asi, a, w))`. -/
def loadReg (w : Width) (ext : BitVec 64 → Word) (asi : Asi) (rd : Reg) (a : Word) (s : State) : Result :=
  finish s (andThen (memRead asi w .integer a s) fun d t => .ok () (advance (writeReg rd (ext d) t)))

/-- LDD and LDDA: `rd` must be even, and the pair takes the two words (R377). -/
def loadPair (asi : Asi) (rd : Reg) (a : Word) (s : State) : Result :=
  if rd.getLsbD 0 then .next (takeTrap ttIllegal s)
  else
    finish s (andThen (memRead asi .dword .integer a s) fun d t =>
      .ok () (advance (writeReg (pairOdd rd) (lowWord d) (writeReg rd (highWord d) t))))

/-- `MemWrite(asi, a, w, x[rd])`. -/
def storeReg (w : Width) (asi : Asi) (rd : Reg) (a : Word) (s : State) : Result :=
  finish s (andThen (memWrite asi w .integer a ((readReg rd s).setWidth 64) s) fun _ t => .ok () (advance t))

/-- STD and STDA: `rd` must be even (R388). -/
def storePair (asi : Asi) (rd : Reg) (a : Word) (s : State) : Result :=
  if rd.getLsbD 0 then .next (takeTrap ttIllegal s)
  else
    finish s (andThen (memWrite asi .dword .integer a (readReg rd s ++ readReg (pairOdd rd) s) s) fun _ t =>
      .ok () (advance t))

/-- LDSTUB: the byte into `x[rd]`, 0xFF into memory (R410). -/
def loadStoreByte (asi : Asi) (rd : Reg) (a : Word) (s : State) : Result :=
  finish s (andThen (memSwap asi .byte a 0xFF s) fun d t => .ok () (advance (writeReg rd (zeroByte d) t)))

/-- SWAP: `x[rd]` and the word change places (R412). -/
def swapReg (asi : Asi) (rd : Reg) (a : Word) (s : State) : Result :=
  finish s (andThen (memSwap asi .word a ((readReg rd s).setWidth 64) s) fun d t =>
    .ok () (advance (writeReg rd (lowWord d) t)))

/-- An alternate-space form: privileged first, then `i` = 1 is illegal (R371). -/
def alternate (i : Bool) (s : State) (body : Result) : Result :=
  if s.psr.s = false then .next (takeTrap ttPrivileged s)
  else if i then .next (takeTrap ttIllegal s)
  else body

/-! ## The instructions -/

/-- LDSB, R372. -/
def execLdsb (rd rs1 : Reg) (o : Opnd2) (s : State) : Result := loadReg .byte signByte (dataAsi s) rd (address rs1 o s) s
/-- LDSH, R373. -/
def execLdsh (rd rs1 : Reg) (o : Opnd2) (s : State) : Result := loadReg .half signHalf (dataAsi s) rd (address rs1 o s) s
/-- LDUB, R374. -/
def execLdub (rd rs1 : Reg) (o : Opnd2) (s : State) : Result := loadReg .byte zeroByte (dataAsi s) rd (address rs1 o s) s
/-- LDUH, R375. -/
def execLduh (rd rs1 : Reg) (o : Opnd2) (s : State) : Result := loadReg .half zeroHalf (dataAsi s) rd (address rs1 o s) s
/-- LD, R376. -/
def execLd (rd rs1 : Reg) (o : Opnd2) (s : State) : Result := loadReg .word lowWord (dataAsi s) rd (address rs1 o s) s
/-- LDD, R377. -/
def execLdd (rd rs1 : Reg) (o : Opnd2) (s : State) : Result := loadPair (dataAsi s) rd (address rs1 o s) s
/-- STB, R385. -/
def execStb (rd rs1 : Reg) (o : Opnd2) (s : State) : Result := storeReg .byte (dataAsi s) rd (address rs1 o s) s
/-- STH, R386. -/
def execSth (rd rs1 : Reg) (o : Opnd2) (s : State) : Result := storeReg .half (dataAsi s) rd (address rs1 o s) s
/-- ST, R387. -/
def execSt (rd rs1 : Reg) (o : Opnd2) (s : State) : Result := storeReg .word (dataAsi s) rd (address rs1 o s) s
/-- STD, R388. -/
def execStd (rd rs1 : Reg) (o : Opnd2) (s : State) : Result := storePair (dataAsi s) rd (address rs1 o s) s
/-- LDSTUB, R410. -/
def execLdstub (rd rs1 : Reg) (o : Opnd2) (s : State) : Result := loadStoreByte (dataAsi s) rd (address rs1 o s) s
/-- SWAP, R412. -/
def execSwap (rd rs1 : Reg) (o : Opnd2) (s : State) : Result := swapReg (dataAsi s) rd (address rs1 o s) s
/-- LDSBA, R378. -/
def execLdsba (rd rs1 : Reg) (i : Bool) (asi : Asi) (rs2 : Reg) (s : State) : Result :=
  alternate i s (loadReg .byte signByte asi rd (altAddress rs1 rs2 s) s)
/-- LDSHA, R379. -/
def execLdsha (rd rs1 : Reg) (i : Bool) (asi : Asi) (rs2 : Reg) (s : State) : Result :=
  alternate i s (loadReg .half signHalf asi rd (altAddress rs1 rs2 s) s)
/-- LDUBA, R380. -/
def execLduba (rd rs1 : Reg) (i : Bool) (asi : Asi) (rs2 : Reg) (s : State) : Result :=
  alternate i s (loadReg .byte zeroByte asi rd (altAddress rs1 rs2 s) s)
/-- LDUHA, R381. -/
def execLduha (rd rs1 : Reg) (i : Bool) (asi : Asi) (rs2 : Reg) (s : State) : Result :=
  alternate i s (loadReg .half zeroHalf asi rd (altAddress rs1 rs2 s) s)
/-- LDA, R382. -/
def execLda (rd rs1 : Reg) (i : Bool) (asi : Asi) (rs2 : Reg) (s : State) : Result :=
  alternate i s (loadReg .word lowWord asi rd (altAddress rs1 rs2 s) s)
/-- LDDA, R383. -/
def execLdda (rd rs1 : Reg) (i : Bool) (asi : Asi) (rs2 : Reg) (s : State) : Result :=
  alternate i s (loadPair asi rd (altAddress rs1 rs2 s) s)
/-- STBA, R389. -/
def execStba (rd rs1 : Reg) (i : Bool) (asi : Asi) (rs2 : Reg) (s : State) : Result :=
  alternate i s (storeReg .byte asi rd (altAddress rs1 rs2 s) s)
/-- STHA, R390. -/
def execStha (rd rs1 : Reg) (i : Bool) (asi : Asi) (rs2 : Reg) (s : State) : Result :=
  alternate i s (storeReg .half asi rd (altAddress rs1 rs2 s) s)
/-- STA, R391. -/
def execSta (rd rs1 : Reg) (i : Bool) (asi : Asi) (rs2 : Reg) (s : State) : Result :=
  alternate i s (storeReg .word asi rd (altAddress rs1 rs2 s) s)
/-- STDA, R392. -/
def execStda (rd rs1 : Reg) (i : Bool) (asi : Asi) (rs2 : Reg) (s : State) : Result :=
  alternate i s (storePair asi rd (altAddress rs1 rs2 s) s)
/-- LDSTUBA, R411. -/
def execLdstuba (rd rs1 : Reg) (i : Bool) (asi : Asi) (rs2 : Reg) (s : State) : Result :=
  alternate i s (loadStoreByte asi rd (altAddress rs1 rs2 s) s)
/-- SWAPA, R413. -/
def execSwapa (rd rs1 : Reg) (i : Bool) (asi : Asi) (rs2 : Reg) (s : State) : Result :=
  alternate i s (swapReg asi rd (altAddress rs1 rs2 s) s)

end Sys2Proof.Machine
end

