-- ==== Sys2Proof/Machine/Run.lean ====
section
/-! DEFINITION. What one step does: the fetch, the instruction, an interrupt in its place, the counters (R152, R781 to
R784, R820, R821). -/

namespace Sys2Proof.Machine

/-! ## Fetch (R152, R205) -/

/-- The words a fetch at `pa` may return: the one in memory, and those it has replaced without a FLUSH. -/
def fetchChoices (pa : PAddr) (s : State) : List Word :=
  memWord s.mem pa :: (s.stale.filter (staleAt pa s.pc)).map Stale.old

/-- The word a fetch returns. Which of several is free (D12, log 4). -/
def fetchWord (pa : PAddr) (s : State) : Word × State :=
  match fetchChoices pa s with
  | [w] => (w, s)
  | l => (l.getD (freeIndex (l.length - 1) s) 0, drawn s)

/-- The instruction at pc: fetched, decoded, executed. A match of the code breakpoint has been noted before, so that the
interrupt stays pending when the instruction traps, a division by 0 among them (R334, R812). A word that decodes to nothing
traps illegal_instruction (R542); one with a reserved bit set is refused (D13, log 1). -/
def runInstruction (s : State) : Result :=
  match fetchTarget s with
  | .trap tt t => .next (takeTrapWith tt s t)
  | .fault r => .fault r
  | .refused r => .refused r
  | .ok pa t =>
    match decodeWord (fetchWord pa t).1 with
    | .ok i => exec i (fetchWord pa t).2
    | .error .reservedBits => .refused .reservedBits
    | .error _ => .next (takeTrapWith ttIllegal s (fetchWord pa t).2)

/-! ## Counters (R820, R821, log 19) -/

/-- A counter is enabled in the mode of the state. -/
def counting (enable user kernel : Bool) (s : State) : Bool := enable && (if s.psr.s then kernel else user)

/-- A counter after an instruction. `ran`: an instruction completed and did not write the counter. -/
def counted (sel : BitVec 8) (on ran : Bool) (c : Word) (s : State) : Word :=
  if on && sel == 0 then (freeValue s).extractLsb' 0 32 else if on && ran && sel == 1 then c - 1 else c

/-- The counter went from 1 to 0 (R821). -/
def zeroEvent (sel : BitVec 8) (on ran : Bool) (c : Word) : Bool := on && ran && sel == 1 && c == 1

/-- The counters after the step that led from `old` to `new`: the settings and the mode are those before it (R820,
R734). An event makes an interrupt pending if ACTION enables it at a level above 0 (R784). -/
def count (old new : State) : State :=
  let c := old.mon.ctrc
  let onA := counting c.aen c.ua c.ka old
  let onB := counting c.ben c.ub c.kb old
  let ranA := !new.trapped && !new.wroteA
  let ranB := !new.trapped && !new.wroteB
  if onA || onB then
    { new with
      fresh := new.fresh + 2
      mon :=
        { new.mon with
          counterA := counted c.selA onA ranA new.mon.counterA new
          counterB := counted c.selB onB ranB new.mon.counterB (drawn new)
          pendA := new.mon.pendA ||
            (zeroEvent c.selA onA ranA new.mon.counterA && intA new.mon.action && live new.mon.action)
          pendB := new.mon.pendB ||
            (zeroEvent c.selB onB ranB new.mon.counterB && intB new.mon.action && live new.mon.action) } }
  else new

/-! ## Interrupts (R780 to R784) -/

/-- The level the monitor requests (D19). -/
def monitorLevel (s : State) : BitVec 4 :=
  if s.mon.pendA || s.mon.pendB || s.mon.pendC || s.mon.pendD then bcipl s.mon.action else 0

/-- The external level at this boundary (D11). -/
def externalLevel (s : State) : BitVec 4 := s.irl.headD 0

/-- The combined level (R783). -/
def requestLevel (s : State) : BitVec 4 :=
  if (externalLevel s).toNat ≤ (monitorLevel s).toNat then monitorLevel s else externalLevel s

/-- The request is taken at this boundary (R781). -/
def interrupted (s : State) : Bool :=
  s.psr.et && requestLevel s != 0 && (requestLevel s == 15 || decide (s.psr.pil.toNat < (requestLevel s).toNat))

/-- Taking the interrupt before the instruction at pc. When it is the monitor's, CTRS records which counter caused it
and nothing is pending any more (R784). -/
def takeInterrupt (s : State) : State :=
  let t := takeTrap (0x1#4 ++ requestLevel s) s
  if (externalLevel s).toNat ≤ (monitorLevel s).toNat then
    { t with
      mon :=
        { t.mon with
          zacis := t.mon.zacis || t.mon.pendA
          zbcis := t.mon.zbcis || t.mon.pendB
          pendA := false
          pendB := false
          pendC := false
          pendD := false } }
  else t

/-! ## A step -/

/-- The state in which a step's instruction runs: the marks of the last step are gone and one sample of the interrupt
level is used up. -/
def beginStep (s : State) : State :=
  { s with trapped := false, wroteA := false, wroteB := false, irl := s.irl.tail }

/-- The step that takes an interrupt in place of the instruction at pc. -/
def interruptStep (s : State) : State :=
  let t := takeInterrupt s
  count s { t with wroteA := false, wroteB := false, irl := s.irl.tail }

/-- The outcome with the counters brought up to date. -/
def counter (old : State) (r : Result) : Result :=
  match r with
  | .next t => .next (count old t)
  | .fault e => .fault e
  | .refused e => .refused e

/-- One step. A synchronous trap of the instruction at pc has priority over an interrupt at the same boundary (R775,
R779); otherwise an interrupt is taken and the instruction does not execute. That the interrupt is also taken where the
instruction at pc is one the model stops on, for a word with a reserved bit set (R247 leaves open whether the chip traps on
it, which would come first), a TLB miss with every entry locked (R876) or any other refusal, is a DESIGN CHOICE: no rule says
which comes first there (log 52). -/
def runStep (s : State) : Result :=
  if s.errorMode then .fault .errorMode
  else
    let b := beginStep s
    let r := counter b (runInstruction b)
    if interrupted s then
      match r with
      | .next t => if t.trapped then r else .next (interruptStep s)
      | _ => .next (interruptStep s)
    else r

/-- `s` out of boot mode, in which the fetch would read the platform's PROM (R166). -/
def leaveBoot (s : State) : State :=
  if s.mmu.cntl.en then s else { s with mmu := { s.mmu with cntl := { s.mmu.cntl with bt := false } } }

/-- `s` with an instruction word stored where the next fetch reads, as the only word that fetch can return. The fetch is
taken out of boot mode: where the PROM stands is not known (log 12, log 30). -/
def placeWord (w : Word) (s0 : State) : State :=
  let s := leaveBoot s0
  match fetchPage s.pc s with
  | .ok pa _ =>
    { s with
      mem := Memory.writeBytes s.mem pa.toNat (splitBytes (w.setWidth 64) 4)
      stale := s.stale.filter fun e => !staleAt pa s.pc e }
  | _ => s

end Sys2Proof.Machine
end

