-- ==== Sys2Proof/Machine/Step.lean ====
section
/-! DEFINITION. The step of the machine, and the word its next step fetches. -/

namespace Sys2Proof.Machine

/-- One step: an instruction, an interrupt in its place, or the halt in error mode. -/
def step (s : State) : Host.Outcome State Fault Refusal := runStep s

/-- `s` with the instruction of an opcode-table word where `step` fetches next. Every instruction has 32 bits. -/
def State.withFetchWord (s : State) (nbits w : Nat) : State := placeWord (BitVec.ofNat 32 (w % 2 ^ nbits)) s

end Sys2Proof.Machine
end

