-- ==== Sys2Proof/Safety.lean ====
section
/-! DEFINITION. The words claims are stated in: what a run does, what an instruction may write and leaves alone, and the
invariant of the machine. -/

namespace Sys2Proof

/-- A state from which a step goes on: neither a fault nor a refusal. -/
def Progresses (s : Machine.State) : Prop := ∃ t, Machine.step s = .next t

/-- The next `n` steps go on. -/
def SafeFor : Nat → Machine.State → Prop
  | 0, _ => True
  | n + 1, s => ∃ t, Machine.step s = .next t ∧ SafeFor n t

end Sys2Proof

namespace Sys2Proof.Spec

open Sys2Proof.Machine

/-! ## Completion -/

/-- Executing the instruction answers a next state, of which `P` holds. -/
def Completes (i : Instr) (s : State) (P : State → Prop) : Prop := ∃ t, exec i s = .next t ∧ P t

/-- `pc <- npc; npc <- npc + 4`. -/
def Advanced (s t : State) : Prop := t.pc = s.npc ∧ t.npc = s.npc + 4

/-- `x[rd]` holds `v`, unless `rd` is `%g0`, which reads 0. -/
def Holds (rd : Reg) (v : Word) (t : State) : Prop := readReg rd t = if rd = 0 then 0 else v

/-- A word address. -/
abbrev AlignedWord (w : Word) : Prop := w.extractLsb' 0 2 = 0

/-- The program counters of a taken transfer; after a taken conditional branch they are any word addresses (log 3). -/
def Transferred (pc npc : Word) (s t : State) : Prop :=
  (s.condTaken = false → t.pc = pc ∧ t.npc = npc) ∧ (s.condTaken = true → AlignedWord t.pc ∧ AlignedWord t.npc)

/-! ## Frames -/

/-- Where `x[r]` of window `w` stands (R33): 0 to 7 are the globals, `8 + k` is `W[k]`. -/
def slot (w : BitVec 3) (r : Reg) : Nat :=
  if r.toNat < 8 then r.toNat else 8 + (16 * w.toNat + (r.toNat - 8)) % 128

/-- The bytes `a`, ..., `a + n - 1`. -/
def byteRange (a n : Nat) : List Nat := (List.range n).map (a + ·)

/-- What an instruction may write, beside the program counters: the register slots, the floating-point registers and the
bytes listed, and the pieces of state whose flag is set. -/
structure Writes where
  slots : List Nat := []
  fregs : List Reg := []
  bytes : List Nat := []
  icc : Bool := false
  cwp : Bool := false
  /-- PSR.S, PS and ET. -/
  mode : Bool := false
  /-- PSR.DE, EC, EF and PIL. -/
  control : Bool := false
  wim : Bool := false
  /-- TBR.TBA. -/
  tba : Bool := false
  /-- TBR.tt. -/
  tt : Bool := false
  y : Bool := false
  fsr : Bool := false
  /-- The floating-point queue and the mode of the FPU. -/
  queue : Bool := false
  mmu : Bool := false
  /-- The tags of the data cache, and which caches have been cleared. -/
  dtags : Bool := false
  monitor : Bool := false
  /-- What a fetch may still see of replaced words, beside what the write of `bytes` replaces. -/
  stale : Bool := false

/-- `e` is what a write to `bytes` leaves for fetches to see: a word with one of these bytes, that the write has changed
between `s` and `t`, as it was in `s`; no FLUSH has named it since (R205, D12, log 4). -/
def Replaced (bytes : List Nat) (s t : State) (e : Stale) : Prop :=
  (∃ k < 4, 4 * e.pa.toNat + k ∈ bytes) ∧ e.old = memWord s.mem (e.pa ++ 0#2) ∧ memWord t.mem (e.pa ++ 0#2) ≠ e.old ∧
    e.cleared = []

/-- Everything `w` does not allow to be written is in `t` as it was in `s`; of replaced words a fetch may see those it could
see in `s`, and those that the write of `w.bytes` has replaced. -/
structure Frame (w : Writes) (s t : State) : Prop where
  regs : ∀ v r, slot v r ∉ w.slots → readRegIn v r t = readRegIn v r s
  fregs : ∀ r, r ∉ w.fregs → readF r t = readF r s
  mem : ∀ a, a ∉ w.bytes → Memory.readByte t.mem a = Memory.readByte s.mem a
  icc : w.icc = false → t.psr.n = s.psr.n ∧ t.psr.z = s.psr.z ∧ t.psr.v = s.psr.v ∧ t.psr.c = s.psr.c
  cwp : w.cwp = false → t.psr.cwp = s.psr.cwp
  mode : w.mode = false → t.psr.s = s.psr.s ∧ t.psr.ps = s.psr.ps ∧ t.psr.et = s.psr.et
  control : w.control = false →
    t.psr.de = s.psr.de ∧ t.psr.ec = s.psr.ec ∧ t.psr.ef = s.psr.ef ∧ t.psr.pil = s.psr.pil
  wim : w.wim = false → t.wim = s.wim
  tba : w.tba = false → t.tbr.tba = s.tbr.tba
  tt : w.tt = false → t.tbr.tt = s.tbr.tt
  y : w.y = false → t.y = s.y
  fsr : w.fsr = false → t.fsr = s.fsr
  queue : w.queue = false → t.fq = s.fq ∧ t.fpMode = s.fpMode
  mmu : w.mmu = false → t.mmu = s.mmu
  dtags : w.dtags = false → t.dtags = s.dtags ∧ t.icacheCleared = s.icacheCleared
  monitor : w.monitor = false → t.mon = s.mon
  stale : w.stale = false → w.bytes = [] → t.stale = s.stale
  replaced : w.stale = false → w.bytes ≠ [] → ∀ e, e ∈ t.stale ↔ e ∈ s.stale ∨ Replaced w.bytes s t e
  irl : t.irl = s.irl
  errorMode : t.errorMode = s.errorMode

/-- A state change that keeps memory byte by byte. -/
def MemKept (s t : State) : Prop := ∀ a, Memory.readByte t.mem a = Memory.readByte s.mem a

/-! ## Modes and traps -/

/-- The FPU is on and has nothing pending. -/
def FpReady (s : State) : Prop := s.psr.ef = true ∧ s.fpMode = .execute

/-- Executing the instruction takes the trap `tt` and does nothing else. -/
def Traps (i : Instr) (tt : TrapType) (s : State) : Prop := exec i s = .next (takeTrap tt s)

/-- No counter is enabled. -/
def CountersOff (s : State) : Prop := s.mon.ctrc.aen = false ∧ s.mon.ctrc.ben = false

/-- Where an access to memory in address space `asi` goes: `t` is the target and `s'` the state after the translation
(R150, R151). -/
def ReachesIn (asi : Asi) (kind : Access) (a : Word) (s : State) (t : Target) (s' : State) : Prop :=
  spaceOf asi ≠ .special ∧ memoryTarget (spaceOf asi) kind a s = .ok (some t) s'

/-- A fetch at physical address `pa` and virtual address `va` may still return the word that `e` keeps: it is the word at
`pa`, and no FLUSH has named the doubleword of `va` since (R205, R540, D12). -/
def SeenBy (pa : PAddr) (va : Word) (e : Stale) : Prop := e.pa = pa.extractLsb' 2 34 ∧ va.extractLsb' 3 29 ∉ e.cleared

/-- The byte `k` of the `n` bytes at `p`. -/
def byteAt (s : State) (p : PAddr) (k : Nat) : Byte := Memory.readByte s.mem (p.toNat + k)

/-- `i` is the plain form, in the data space of the mode, or the alternate form in address space `asi` in supervisor
mode; `a` is its effective address (R132, R370). -/
def AccessForm (plain alt : Instr) (rs1 rs2 : Reg) (o : Opnd2) (asi : Asi) (a : Word) (s : State) (i : Instr) : Prop :=
  (i = plain ∧ asi = dataAsi s ∧ a = readReg rs1 s + opnd2 o s) ∨
    (i = alt ∧ s.psr.s = true ∧ a = readReg rs1 s + readReg rs2 s)

/-- The bytes of a word, the most significant first. -/
def wordBytes (w : Word) : List Byte :=
  [w.extractLsb' 24 8, w.extractLsb' 16 8, w.extractLsb' 8 8, w.extractLsb' 0 8]

/-! ## Breakpoints -/

/-- The address equals BKV in the bits that BKM lets count (R725); which they are is not known (log 49). -/
def Watched (m : Monitor) (a : Word) : Prop :=
  ∀ k < 32, m.bkm.getLsbD k = Config.breakMaskCompares → a.getLsbD k = m.bkv.getLsbD k

/-- Neither DBREN nor DBWEN is set. -/
def NoDataBreak (s : State) : Prop := s.mon.bkc.getLsbD 1 = false ∧ s.mon.bkc.getLsbD 0 = false

/-! ## TLB lookup (R181) -/

/-- The entry matches the address in context `ctx`: V = 1; the context tag is `ctx`, or ACC is 6 or 7 on a chip where such pages
match in any context (log 6); and the virtual tag equals the address in the bits above the page size of the level, of which
there are none at level 0. -/
def Matches (ctx va : Word) (e : TlbEntry) : Prop :=
  e.v = true ∧ (e.ctx = ctx ∨ (e.acc.toNat ∈ [6, 7] ∧ Config.supervisorPagesMatchAnyContext = true)) ∧
  (e.level.toNat = 3 → e.vtag = va.extractLsb' 12 20) ∧
  (e.level.toNat = 2 → e.vtag.extractLsb' 6 14 = va.extractLsb' 18 14) ∧
  (e.level.toNat = 1 → e.vtag.extractLsb' 12 8 = va.extractLsb' 24 8)

/-! ## Table walks (R175, R176) -/

/-- Where the entry of level `n` stands in the table that the pointer `e` of the level above names. -/
def tableAddr (n : Nat) (e va : Word) : PAddr :=
  if n = 1 then e.extractLsb' 6 26 ++ va.extractLsb' 24 8 ++ 0#2
  else if n = 2 then e.extractLsb' 4 28 ++ va.extractLsb' 18 6 ++ 0#2
  else e.extractLsb' 4 28 ++ va.extractLsb' 12 6 ++ 0#2

/-- Where the entry of the context table stands. -/
def rootAddr (s : State) : PAddr := (s.mmu.ctp ++ 0#6) + s.mmu.ctx.setWidth 36 * 4

/-- The entry that a walk from the entry `e` of level `k` finds `j` levels further down. -/
def below (s : State) (va : Word) (k : Nat) (e : Word) : Nat → Word
  | 0 => e
  | j + 1 => memWord s.mem (tableAddr (k + j + 1) (below s va k e j) va)

/-- Where that entry stands; for `j = 0`, the entry of the context table. -/
def belowAddr (s : State) (va : Word) (k : Nat) (e : Word) : Nat → PAddr
  | 0 => rootAddr s
  | j + 1 => tableAddr (k + j + 1) (below s va k e j) va

/-- ET says that the entry is a page table pointer. -/
def Pointer (e : Word) : Prop := e.extractLsb' 0 2 = 1

/-- The level-2 pointer caches of a side: those of the D-TLB, or the one of the I-TLB. -/
def cachedPtp2 (data : Bool) (s : State) : List Ptp2 := if data then s.mmu.dptp2.toList else [s.mmu.iptp2]

/-- The cached pointer serves the address. -/
def Serves (va : Word) (p : Ptp2) : Prop := p.valid = 1 ∧ p.tag = va.extractLsb' 18 14

/-- A walk for the address starts at the entry `e` of level `k`: at the one cached level-2 pointer that serves, else at PTP0,
else at the entry of the context table. `read` says that the entry is read from memory. -/
def WalkStarts (data : Bool) (va : Word) (s : State) (k : Nat) (e : Word) (read : Bool) : Prop :=
  (k = 2 ∧ read = false ∧
    ∃ p, (cachedPtp2 data s).filter (fun p => p.valid == 1 && p.tag == va.extractLsb' 18 14) = [p] ∧
      e = p.ptr ++ 0#2 ++ 1#2) ∨
  (k = 0 ∧ (∀ p ∈ cachedPtp2 data s, ¬ Serves va p) ∧
    ((read = false ∧ s.mmu.ptp0.valid = 1 ∧ e = s.mmu.ptp0.ptr ++ 0#4 ++ 1#2) ∨
      (read = true ∧ s.mmu.ptp0.valid ≠ 1 ∧ e = memWord s.mem (rootAddr s))))

/-- The walk from that entry ends `j` levels further down. -/
def WalkEnds (s : State) (va : Word) (k : Nat) (e : Word) (j : Nat) : Prop :=
  k + j ≤ 3 ∧ (∀ i < j, Pointer (below s va k e i)) ∧ (k + j < 3 → ¬ Pointer (below s va k e j))

/-- The physical address in the page of a PTE of level `l`. -/
def InPage (l : Nat) (ppn : BitVec 24) (va : Word) (p : PAddr) : Prop :=
  (l = 3 → p = ppn ++ va.extractLsb' 0 12) ∧ (l = 2 → p = ppn.extractLsb' 6 18 ++ va.extractLsb' 0 18) ∧
    (l = 1 → p = ppn.extractLsb' 12 12 ++ va.extractLsb' 0 24) ∧ (l = 0 → p = ppn.extractLsb' 20 4 ++ va)

/-- R177: the column of the mode permits the access. -/
def Permitted (acc : BitVec 3) (user : Prop) : Access → Prop
  | .load => acc.toNat ∈ [0, 1, 2, 3, 5] ∨ (acc.toNat ∈ [6, 7] ∧ ¬ user)
  | .store => acc.toNat ∈ [1, 3] ∨ (acc.toNat ∈ [5, 7] ∧ ¬ user)
  | .execute => acc.toNat ∈ [2, 3, 4] ∨ (acc.toNat ∈ [6, 7] ∧ ¬ user)

/-- FT of a denied access is 3 for a user's access to a supervisor page (ACC 6 or 7), else 2 (R177, log 45). -/
def DenialType (acc : BitVec 3) (user : Prop) (ft : BitVec 3) : Prop :=
  (user ∧ acc.toNat ∈ [6, 7] → ft = 3) ∧ (¬ (user ∧ acc.toNat ∈ [6, 7]) → ft = 2)

/-- FT of a walk that ends at the entry `pte` of level `l` and gives no access: 1 for an invalid entry, 4 for a pointer at
level 3, else the denial by ACC (R175, R177). -/
def WalkFails (l : Nat) (pte : Word) (user : Prop) (kind : Access) (ft : BitVec 3) : Prop :=
  (pte.extractLsb' 0 2 = 0 ∧ ft = 1) ∨ (l = 3 ∧ Pointer pte ∧ ft = 4) ∨
    (pte.getLsbD 1 = true ∧ ¬ Permitted (pte.extractLsb' 2 3) user kind ∧ DenialType (pte.extractLsb' 2 3) user ft)

/-- `w` is the first of the four D_PTP2 entries that is invalid, from 0 up. -/
def FirstInvalid (s : State) (w : Fin 4) : Prop := s.mmu.dptp2[w].valid ≠ 1 ∧ ∀ i < w, s.mmu.dptp2[i].valid = 1

/-- The pointer caches after a walk that has read pointers: the entry of the context table goes to PTP0, that of level 2 to
a level-2 pointer cache of the side, of the four D_PTP2 entries to the first invalid one, or to any when all are valid (R70,
log 5); the others are as they were (R176, log 44). -/
def PointersCached (data : Bool) (va : Word) (s u : State) (k : Nat) (e : Word) (read : Bool) (j : Nat) : Prop :=
  u.mmu.ptp0 = (if read = true ∧ 0 < j then { ptr := e.extractLsb' 6 26, valid := 1 } else s.mmu.ptp0) ∧
  (let p : Ptp2 := { ptr := (below s va k e 2).extractLsb' 4 28, valid := 1, tag := va.extractLsb' 18 14 }
  (k = 0 ∧ j = 3 → if data then u.mmu.iptp2 = s.mmu.iptp2 ∧
      (∀ w : Fin 4, FirstInvalid s w → u.mmu.dptp2 = s.mmu.dptp2.set w p) ∧
      ((∀ i : Fin 4, s.mmu.dptp2[i].valid = 1) → ∃ w : Fin 4, u.mmu.dptp2 = s.mmu.dptp2.set w p)
    else u.mmu.iptp2 = p ∧ u.mmu.dptp2 = s.mmu.dptp2) ∧
  (¬ (k = 0 ∧ j = 3) → u.mmu.iptp2 = s.mmu.iptp2 ∧ u.mmu.dptp2 = s.mmu.dptp2))

/-- The TLB entry that a PTE of level `l` makes (R180); the I-TLB holds neither M nor RBO (R65, R66). -/
def entryFrom (data : Bool) (va ctx : Word) (l : Nat) (pte : Word) : TlbEntry where
  vtag := va.extractLsb' 12 20
  ctx := ctx
  ppn := pte.extractLsb' 8 24
  c := pte.getLsbD 7
  m := data && pte.getLsbD 6
  v := true
  acc := pte.extractLsb' 2 3
  level := BitVec.ofNat 2 l
  rbo := data && pte.getLsbD 0
  lock := false

/-- What a translation for `va` may change, of data or of a fetch: the TLB and the level-2 pointers of its side, PTP0, MFSR
and MFAR, the bytes of the PTE at which its walk ends, and whether an event of a breakpoint is pending (R176, R178 to R180,
R784). -/
def Translation (data : Bool) (va : Word) (s u : State) : Prop :=
  u.pc = s.pc ∧ u.npc = s.npc ∧
  Frame { mmu := true, bytes := byteRange (walk data va s).last.addr.toNat 4, monitor := true } s u ∧
  u.mmu = { s.mmu with
    fsr := u.mmu.fsr, far := u.mmu.far, ptp0 := u.mmu.ptp0
    dtlb := if data then u.mmu.dtlb else s.mmu.dtlb
    dptp2 := if data then u.mmu.dptp2 else s.mmu.dptp2
    itlb := if data then s.mmu.itlb else u.mmu.itlb
    iptp2 := if data then s.mmu.iptp2 else u.mmu.iptp2 } ∧
  u.mon = { s.mon with pendC := u.mon.pendC, pendD := u.mon.pendD } ∧ (Memory.wf s.mem = true → Memory.wf u.mem = true)

/-- What a fault of the MMU leaves, for an access or a fetch at `va`: MFSR and MFAR, and the pointers that its walk has read.
It fills no TLB entry and writes nothing to memory (R178; log 26, log 44). -/
def Denied (data : Bool) (va : Word) (s u : State) : Prop :=
  Translation data va s u ∧ Frame { mmu := true } s u ∧ u.mmu.dtlb = s.mmu.dtlb ∧ u.mmu.itlb = s.mmu.itlb

/-! ## Floating point -/

/-- The instructions that operate on floating-point registers and have a result. -/
def arithmeticFpops (rd rs1 rs2 : Reg) : List Instr :=
  [.fmovs rd rs2, .fnegs rd rs2, .fabss rd rs2, .fadds rd rs1 rs2, .faddd rd rs1 rs2, .fsubs rd rs1 rs2,
   .fsubd rd rs1 rs2, .fmuls rd rs1 rs2, .fmuld rd rs1 rs2, .fsmuld rd rs1 rs2, .fdivs rd rs1 rs2, .fdivd rd rs1 rs2,
   .fsqrts rd rs2, .fsqrtd rd rs2, .fitos rd rs2, .fitod rd rs2, .fstoi rd rs2, .fdtoi rd rs2, .fstod rd rs2,
   .fdtos rd rs2, .fcmps rs1 rs2, .fcmpd rs1 rs2, .fcmpes rs1 rs2, .fcmped rs1 rs2]

/-- The operates the hardware does not implement (R612, R613). -/
def unimplementedFpops (rd rs1 rs2 : Reg) (opf : BitVec 9) : List Instr :=
  [.faddq rd rs1 rs2, .fsubq rd rs1 rs2, .fmulq rd rs1 rs2, .fdivq rd rs1 rs2, .fdmulq rd rs1 rs2, .fsqrtq rd rs2,
   .fitoq rd rs2, .fstoq rd rs2, .fdtoq rd rs2, .fqtoi rd rs2, .fqtos rd rs2, .fqtod rd rs2, .fcmpq rs1 rs2,
   .fcmpeq rs1 rs2, .fpop1Other rd rs1 opf rs2, .fpop2Other rd rs1 opf rs2]

/-- The branches on fcc. -/
def floatBranches (a : Bool) (d : BitVec 22) : List Instr :=
  [.fbn a d, .fbne a d, .fblg a d, .fbul a d, .fbl a d, .fbug a d, .fbg a d, .fbu a d, .fba a d, .fbe a d, .fbue a d,
   .fbge a d, .fbuge a d, .fble a d, .fbule a d, .fbo a d]

/-- The queue entry an operate at pc leaves (R553). -/
def Queued (i : Instr) (s t : State) : Prop := t.fpMode = .exceptionPending ∧ t.fq = [(s.pc, encode i)]

/-- `c` is the first member of the set `e`, in the order nv, of, uf, dz, nx. -/
def FirstOf (e c : BitVec 5) : Prop :=
  ∃ k < 5, c = 1 <<< k ∧ e.getLsbD k = true ∧ ∀ j, k < j → e.getLsbD j = false

/-- A value without NaN as a number; an infinity counts as beyond every finite value. -/
def valueOf : FloatVal → ℚ
  | .nan _ _ => 0
  | .inf s => if s then -2 ^ 2000 else 2 ^ 2000
  | .zero _ => 0
  | .fin s m e => (if s then -1 else 1) * m * 2 ^ e

/-- The pattern is a finite number of the format. -/
def Finite (F : Format) (x : Nat) : Prop :=
  x < 2 ^ (F.p + F.w) ∧ ∀ s n, unpack F x ≠ .inf s ∧ unpack F x ≠ .nan s n

/-- The magnitude bits of infinity; one less is the largest finite value. -/
def infinityBits (F : Format) : Nat := (2 ^ F.w - 1) * 2 ^ (F.p - 1)

/-- The pattern is an infinity of the format. -/
def Infinite (F : Format) (x : Nat) : Prop := x < 2 ^ (F.p + F.w) ∧ x % 2 ^ (F.p + F.w - 1) = infinityBits F

/-- The sign bit of a pattern. -/
def signOf (F : Format) (x : Nat) : Bool := decide (2 ^ (F.p + F.w - 1) ≤ x)

/-- The result with these magnitude bits and this sign, and the exceptions `exc` as a number. -/
def signedResult (F : Format) (neg : Bool) (mag : Nat) (exc : Nat := 0) : FloatRes :=
  { bits := (if neg then 2 ^ (F.p + F.w - 1) else 0) + mag, exc := BitVec.ofNat 5 exc }

/-- The result of an invalid operation on operands that are no NaN: the default NaN, with nv (R556; D38, log 42). -/
def invalidResult (F : Format) : FloatRes := signedResult F false (2 ^ (F.p + F.w - 1) - 1) 16

/-- `x`, rounded in direction `rm` with an unbounded exponent range, is greater in magnitude than the largest finite value
`2^(bias+1) - 2^(bias+1-p)` (R552). To nearest, that takes in the tie with the next value up, which is even. -/
def Overflows (F : Format) (rm : BitVec 2) (x : ℝ) : Prop :=
  let next : ℝ := 2 ^ (F.bias + 1)
  let unit : ℝ := 2 ^ (F.bias + 1 - F.p)
  next ≤ |x| ∨ (rm = 0 ∧ next - unit / 2 ≤ |x|) ∨ (rm = 2 ∧ next - unit < x) ∨ (rm = 3 ∧ x < -(next - unit))

/-- `r` is the number `x`, which is not 0, rounded once to the format in direction `rm` (0 to nearest, 1 toward zero, 2 up,
3 down), with the sign of `x`. An overflow raises of and nx and gives infinity or the largest finite value, by the
direction. Otherwise nx says that the result is not exact, uf that `x` is tiny before rounding and the underflow is
trapped or not exact (R552, R554). -/
def RoundedTo (F : Format) (rm : BitVec 2) (ufm : Bool) (x : ℝ) (r : FloatRes) : Prop :=
  (∀ neg : Bool, (neg = true ↔ x < 0) → signOf F r.bits = neg ∧
    (Overflows F rm x → r = signedResult F neg
      (if rm = 0 ∨ (rm = 2 ∧ neg = false) ∨ (rm = 3 ∧ neg = true) then infinityBits F else infinityBits F - 1) 9)) ∧
  (¬ Overflows F rm x →
    let y : ℝ := valueOf (unpack F r.bits)
    Finite F r.bits ∧ r.exc.getLsbD 3 = false ∧ r.exc.getLsbD 4 = false ∧ r.exc.getLsbD 1 = false ∧
    (r.exc.getLsbD 0 = true ↔ y ≠ x) ∧
    (r.exc.getLsbD 2 = true ↔ |x| < 2 ^ (1 - F.bias) ∧ (ufm = true ∨ y ≠ x)) ∧
    ∀ b, Finite F b →
      let z : ℝ := valueOf (unpack F b)
      (rm = 0 → |y - x| ≤ |z - x| ∧ (|y - x| = |z - x| → z ≠ y → r.bits % 2 = 0)) ∧
      (rm = 1 → |y| ≤ |x| ∧ 0 ≤ y * x ∧ (|z| ≤ |x| → |z| ≤ |y|)) ∧
      (rm = 2 → x ≤ y ∧ (x ≤ z → y ≤ z)) ∧ (rm = 3 → y ≤ x ∧ (z ≤ x → z ≤ y)))

/-- The conversion of the finite number `a` to an integer: toward zero, nx if that discards a fraction; out of range it
saturates and raises nv (R585). -/
def TruncatedTo (a : ℚ) (r : FloatRes) : Prop :=
  ∃ n : ℤ, |(n : ℚ)| ≤ |a| ∧ |a| < |(n : ℚ)| + 1 ∧ 0 ≤ n * a ∧
    (-2 ^ 31 ≤ n → n < 2 ^ 31 →
      (BitVec.ofNat 32 r.bits).toInt = n ∧ r.exc.toNat = if (n : ℚ) = a then 0 else 1) ∧
    (2 ^ 31 ≤ n → r.bits = 0x7FFFFFFF ∧ r.exc.toNat = 16) ∧ (n < -2 ^ 31 → r.bits = 0x80000000 ∧ r.exc.toNat = 16)

/-! ## The diagnostic spaces of the MMU -/

/-- `w` is the cached PTE word of a TLB entry (R674). The code of LVL is not known (log 8). -/
def EntryWord (e : TlbEntry) (w : Word) : Prop :=
  w.extractLsb' 8 24 = e.ppn ∧ w.getLsbD 7 = e.c ∧ w.getLsbD 6 = e.m ∧ w.getLsbD 5 = e.v ∧ w.extractLsb' 2 3 = e.acc ∧
    w.extractLsb' 0 2 = Config.lvlCode e.level

/-- LDA in space `asi` reads a word of which `P` holds and changes nothing else. -/
def ReadsWord (asi : Asi) (rd rs1 rs2 : Reg) (s : State) (P : Word → Prop) : Prop :=
  Completes (.lda rd rs1 false asi rs2) s fun t =>
    Advanced s t ∧ Frame { slots := [slot s.psr.cwp rd] } s t ∧ ∃ w, P w ∧ Holds rd w t

/-- STA in space `asi` leaves the MMU as `m` and changes nothing else. -/
def WritesMmu (asi : Asi) (rd rs1 rs2 : Reg) (s : State) (m : Mmu) : Prop :=
  Completes (.sta rd rs1 false asi rs2) s fun t => Advanced s t ∧ Frame { mmu := true } s t ∧ t.mmu = m

/-- Word accesses to entry `k` of the TLB `tlb`, at Sel 2 the PTE word and at Sel 3 RBO and Lock (R674, R675). `put` is the
MMU with another TLB in its place; the I-TLB has no M and no RBO (`hasM` false). A store that would leave every entry
locked and valid is refused (R876). -/
def EntryAccesses {n : Nat} (hasM : Bool) (asi : Asi) (rd rs1 rs2 : Reg) (s : State) (tlb : Vector TlbEntry n)
    (put : Vector TlbEntry n → Mmu) (k : Fin n) : Prop :=
  let sel := ((readReg rs1 s + readReg rs2 s).extractLsb' 8 3).toNat
  let v := readReg rd s
  let e := tlb[k]
  let stores (e' : TlbEntry) :=
    let full := ∀ j : Fin n, (tlb.set k e')[j].lock = true ∧ (tlb.set k e')[j].v = true
    (full → exec (.sta rd rs1 false asi rs2) s = .refused .tlbAllLocked) ∧
    (¬ full → WritesMmu asi rd rs1 rs2 s (put (tlb.set k e')))
  (sel = 2 →
    ReadsWord asi rd rs1 rs2 s (EntryWord { e with m := hasM && e.m }) ∧
    ∀ e' : TlbEntry, EntryWord e' (if hasM then v else v &&& 0xFFFFFFBF) →
      e'.vtag = e.vtag → e'.ctx = e.ctx → e'.rbo = e.rbo → e'.lock = e.lock → stores e') ∧
  (sel = 3 →
    ReadsWord asi rd rs1 rs2 s (fun w => w.toNat = 2 * (hasM && e.rbo).toNat + e.lock.toNat) ∧
    stores { e with rbo := hasM && v.getLsbD 1, lock := v.getLsbD 0 })

/-- Word accesses to a cached level-2 pointer `p`, at Sel 5 the pointer and its valid field and at Sel 6 its tag (R677,
R678). The valid fields 10 and 11 are refused (log 37); the reserved bits of the tag word read 0 (log 48). -/
def PointerAccesses (asi : Asi) (rd rs1 rs2 : Reg) (s : State) (p : Ptp2) (put : Ptp2 → Mmu) : Prop :=
  let sel := ((readReg rs1 s + readReg rs2 s).extractLsb' 8 3).toNat
  let v := readReg rd s
  (sel = 5 →
    ReadsWord asi rd rs1 rs2 s (· = p.ptr ++ 0#2 ++ p.valid) ∧
    (v.getLsbD 1 = true → exec (.sta rd rs1 false asi rs2) s = .refused .ptpValid) ∧
    (v.getLsbD 1 = false →
      WritesMmu asi rd rs1 rs2 s (put { p with ptr := v.extractLsb' 4 28, valid := v.extractLsb' 0 2 }))) ∧
  (sel = 6 →
    ReadsWord asi rd rs1 rs2 s (· = p.tag ++ 0#18) ∧
    WritesMmu asi rd rs1 rs2 s (put { p with tag := v.extractLsb' 18 14 }))

/-! ## The invariant -/

/-- What holds of every state the machine can reach and is kept by every step: program counters are word addresses
(R36); memory has its canonical form; the queue and the mode of the FPU agree (R54, D39); ftt is never 2, 5 or 6
(R51, R770) nor the reserved 7; I-TLB entries hold neither M nor RBO (R65, R66); the context number fits its register
(R664); neither TLB is locked and valid throughout (R876); a cache that is on has been cleared (R72, R73); the monitor is in
a state the spec describes (R723, R734, R820); what is pending is enabled (D19). -/
structure Inv (s : State) : Prop where
  pc : AlignedWord s.pc
  npc : AlignedWord s.npc
  mem : Memory.wf s.mem = true
  queue : s.fq.length ≤ 1
  mode : s.fpMode = .execute ↔ s.fq = []
  trapType : s.fsr.ftt ∈ [0, 1, 3, 4]
  itlb : ∀ i : Fin 16, s.mmu.itlb[i].m = false ∧ s.mmu.itlb[i].rbo = false
  context : contextNumber s.mmu.ctx = s.mmu.ctx
  dataUnlocked : sideLocked true s = false
  instrUnlocked : sideLocked false s = false
  instrCache : s.mmu.cntl.ie = true → s.icacheCleared = true
  dataCache : s.mmu.cntl.de = true → dcacheCleared s = true
  physicalMatch : s.mon.bkc.getLsbD 5 = false
  selectA : s.mon.ctrc.selA.toNat < 2
  selectB : s.mon.ctrc.selB.toNat < 2
  cycles : cycleInterrupt s.mon.ctrc s.mon.action = false
  pendA : s.mon.pendA = true → intA s.mon.action = true
  pendB : s.mon.pendB = true → intB s.mon.action = true
  pendC : s.mon.pendC = true → intC s.mon.action = true
  pendD : s.mon.pendD = true → intD s.mon.action = true

end Sys2Proof.Spec
end

