-- ==== Sys2Proof/Certificates/Slice0/Obligations.lean ====
section
/-! DEFINITION. The statements for the provers, family by family; OBLIGATIONS.json says which rule each formalises. -/

open Sys2Proof Sys2Proof.Machine Sys2Proof.Spec

/-! ## Decoding and encoding -/

/-- Words of 95_test_vectors.md, section 2.1, decode to the instructions they stand for. -/
def Obligations.KnownWordsDecode : Prop :=
  decodeWord 0x86007FFF = .ok (.add 3 1 (.imm 0x1FFF)) ∧
  decodeWord 0x80A20009 = .ok (.subcc 0 8 (.reg 9)) ∧
  decodeWord 0x03048D15 = .ok (.sethi 1 0x048D15) ∧
  decodeWord 0xC0A04060 = .ok (.sta 0 1 false 0x03 0) ∧
  decodeWord 0x32BFFFFE = .ok (.bne true 0x3FFFFE) ∧
  decodeWord 0x9DE3BFA0 = .ok (.save 14 14 (.imm 0x1FA0)) ∧
  decodeWord 0x91D02005 = .ok (.ta 0 (.imm 5)) ∧
  decodeWord 0x81A08824 = .ok (.fadds 0 2 4) ∧
  decodeWord 0x8143C000 = .ok .stbar ∧
  decodeWord 0xC12C0011 = .ok (.stfsr 0 16 (.reg 17))

/-- Decoding the bytes of an encoded well-formed instruction gives it back, whatever bytes follow. -/
def Obligations.DecodeEncodeRoundTrip : Prop :=
  ∀ (i : Instr) (rest : List Byte), i.WellFormed → decode (bytesOfWord (encode i) ++ rest) = .ok (i, rest)

/-- Every word that decodes is the one encoding of what it decodes to, and that is well-formed: no two rows share a
word (R248). -/
def Obligations.DecodedIsWellFormed : Prop :=
  ∀ (w : Word) (i : Instr), decodeWord w = .ok i → encode i = w ∧ i.WellFormed

/-- R542: the unallocated encodings. A word of one of them decodes to no instruction, and a step that runs it takes
illegal_instruction. -/
def Obligations.UnallocatedEncodingsTrap : Prop :=
  ∀ w : Word,
    ((fieldOp w = 0 ∧ fieldOp2 w ∈ ([1, 3, 5] : List (BitVec 3))) ∨
      (fieldOp w = 2 ∧
        fieldOp3 w ∈ ([0x09, 0x0D, 0x19, 0x1D, 0x2C, 0x2D, 0x2E, 0x2F, 0x3E, 0x3F] : List (BitVec 6))) ∨
      (fieldOp w = 3 ∧
        fieldOp3 w ∉ ([0x00, 0x01, 0x02, 0x03, 0x04, 0x05, 0x06, 0x07, 0x09, 0x0A, 0x0D, 0x0F, 0x10, 0x11, 0x12, 0x13,
          0x14, 0x15, 0x16, 0x17, 0x19, 0x1A, 0x1D, 0x1F, 0x20, 0x21, 0x23, 0x24, 0x25, 0x26, 0x27, 0x30, 0x31, 0x33,
          0x34, 0x35, 0x36, 0x37] : List (BitVec 6)))) →
    (∃ e, decodeWord w = .error e ∧ e ≠ .reservedBits) ∧
    ∀ (s t : State) (pa : PAddr), fetchTarget s = .ok pa t → (fetchWord pa t).1 = w →
      runInstruction s = .next (takeTrapWith ttIllegal s (fetchWord pa t).2)

/-! ## The step -/

/-- When no interrupt is accepted and the word fetched at pc decodes to an instruction, the step is that instruction,
with the counters brought up to date; with the counters off it is the instruction alone. A word with a reserved bit set is
refused (R247, D13). The word fetched is the one in memory or, after stores that no FLUSH has followed, one they have replaced
(R205, D12); where none of these can be seen it is the one in memory. The fetch changes nothing but the count of free values.
When the fetch traps, the step takes that trap. Where a fetch goes and when it traps is said by DataTargets, TableWalk and
DeniedLoadIsRecorded, and what it leaves alone by TranslationFrame. -/
def Obligations.StepRunsDecodedInstruction : Prop :=
  ∀ s : State, s.errorMode = false → interrupted s = false →
    (∀ (t : State) (pa : PAddr), fetchTarget (beginStep s) = .ok pa t →
      let w := (fetchWord pa t).1
      let u := (fetchWord pa t).2
      (w = memWord t.mem pa ∨ ∃ e ∈ t.stale, SeenBy pa s.pc e ∧ w = e.old) ∧
      ((∀ e ∈ t.stale, ¬ SeenBy pa s.pc e) → w = memWord t.mem pa ∧ u = t) ∧
      u = { t with fresh := u.fresh } ∧
      (∀ i : Instr, decodeWord w = .ok i →
        step s = counter (beginStep s) (exec i u) ∧ (CountersOff s → step s = exec i u)) ∧
      (decodeWord w = .error .reservedBits → step s = .refused .reservedBits)) ∧
    ∀ (tt : TrapType) (t : State), fetchTarget (beginStep s) = .trap tt t →
      step s = counter (beginStep s) (.next (takeTrapWith tt (beginStep s) t))

/-- R781, R775: with ET = 1 a request of level 15 or above PIL is taken before the instruction at pc: the trap type is
`0x10` plus the level, and `%l1` and `%l2` of the new window hold pc and npc. R784, R82: when the interrupt is the
monitor's, CTRS gets the bit of each counter that was pending and nothing of the monitor is pending any more; when it is the
external one, both are as they were. That a tie of the levels is the monitor's is the model's choice (log 18). If that
instruction traps, its trap is taken instead. That the interrupt is taken where the model refuses that instruction, or its TLB
miss deadlocks, is the model's choice too (R247 and R775 do not say which comes first, log 52). -/
def Obligations.InterruptTaken : Prop :=
  ∀ s : State, s.errorMode = false → s.psr.et = true →
    requestLevel s ≠ 0 → (requestLevel s = 15 ∨ s.psr.pil.toNat < (requestLevel s).toNat) →
    ((∀ t, runInstruction (beginStep s) = .next t → t.trapped = false) →
      ∃ t, step s = .next t ∧ t.tbr.tt = 0x10#8 + (requestLevel s).setWidth 8 ∧
        t.psr.cwp = s.psr.cwp - 1 ∧ t.psr.et = false ∧ t.psr.s = true ∧ t.psr.ps = s.psr.s ∧
        t.psr.pil = s.psr.pil ∧ readReg 17 t = s.pc ∧ readReg 18 t = s.npc ∧
        t.pc = s.tbr.tba ++ (0x10#8 + (requestLevel s).setWidth 8) ++ 0#4 ∧ MemKept s t ∧
        ((externalLevel s).toNat ≤ (monitorLevel s).toNat →
          t.mon.zacis = (s.mon.zacis || s.mon.pendA) ∧ t.mon.zbcis = (s.mon.zbcis || s.mon.pendB) ∧
          t.mon.pendA = false ∧ t.mon.pendB = false ∧ t.mon.pendC = false ∧ t.mon.pendD = false) ∧
        ((monitorLevel s).toNat < (externalLevel s).toNat →
          t.mon.zacis = s.mon.zacis ∧ t.mon.zbcis = s.mon.zbcis ∧ t.mon.pendA = s.mon.pendA ∧
          t.mon.pendB = s.mon.pendB ∧ t.mon.pendC = s.mon.pendC ∧ t.mon.pendD = s.mon.pendD)) ∧
    (∀ t, runInstruction (beginStep s) = .next t → t.trapped = true →
      ∃ u, step s = .next u ∧ u.tbr.tt = t.tbr.tt ∧ u.pc = t.pc ∧ u.psr = t.psr ∧ u.mem = t.mem)

/-- R820, R821, R784: with a counter set to count instructions in the mode of the state, an instruction that completes
without trapping and does not write the counter takes 1 off it. At the step from 1 to 0 its monitor interrupt becomes
pending if ACTION enables it at a level above 0; else the event is lost, and the request stays as it was, as it does at every
other step. A counter that is not enabled in that mode, or that the instruction writes, counts nothing. Which
instructions count is decision D20 (log 19), and that the event is judged by ACTION as it stands after the instruction
is the model's choice (log 40). -/
def Obligations.InstructionCountDecrements : Prop :=
  ∀ s t : State, s.errorMode = false → interrupted s = false →
    runInstruction (beginStep s) = .next t → t.trapped = false →
    ∃ u, step s = .next u ∧ u.pc = t.pc ∧ u.psr = t.psr ∧ u.mem = t.mem ∧
      (let on := s.mon.ctrc.aen = true ∧ (if s.psr.s then s.mon.ctrc.ka else s.mon.ctrc.ua) = true
      let counts := on ∧ s.mon.ctrc.selA = 1 ∧ t.wroteA = false
      let event := counts ∧ t.mon.counterA = 1 ∧ intA t.mon.action = true ∧ bcipl t.mon.action ≠ 0
      (counts → u.mon.counterA = t.mon.counterA - 1) ∧
      (¬ counts → ¬ (on ∧ s.mon.ctrc.selA = 0) → u.mon.counterA = t.mon.counterA) ∧
      (event → u.mon.pendA = true) ∧ (¬ event → u.mon.pendA = t.mon.pendA)) ∧
      (let on := s.mon.ctrc.ben = true ∧ (if s.psr.s then s.mon.ctrc.kb else s.mon.ctrc.ub) = true
      let counts := on ∧ s.mon.ctrc.selB = 1 ∧ t.wroteB = false
      let event := counts ∧ t.mon.counterB = 1 ∧ intB t.mon.action = true ∧ bcipl t.mon.action ≠ 0
      (counts → u.mon.counterB = t.mon.counterB - 1) ∧
      (¬ counts → ¬ (on ∧ s.mon.ctrc.selB = 0) → u.mon.counterB = t.mon.counterB) ∧
      (event → u.mon.pendB = true) ∧ (¬ event → u.mon.pendB = t.mon.pendB))

/-! ## The invariant -/

/-- Every step keeps the invariant. -/
def Obligations.StepKeepsInvariant : Prop := ∀ s t : State, Inv s → step s = .next t → Inv t

/-- The state after reset has the invariant, and is what R798, R120 and R852 give: pc 0, npc 4, supervisor, traps off,
the MMU, the caches and the store buffer off, CTRS 0, no TLB entry locked. A watchdog reset gives the same entry, in boot
mode, with PSR.DE 0 (R120 gives it the power-on value, D9a), and keeps memory, the data cache tags and TBR.tt (R73, R798).
Of this the model's choices are, by log 35, that BT is set, that PS, PIL, EF, EC, icc and CWP, which R120 calls unspecified
at a watchdog reset, are kept, and that what is pending in the monitor stays so; and by log 12 that the first fetch goes to
a page that is not known, `Config.bootPage 0`. -/
def Obligations.ResetState : Prop :=
  Inv State.reset ∧ State.reset.pc = 0 ∧ State.reset.npc = 4 ∧ State.reset.psr.s = true ∧
    State.reset.psr.et = false ∧ (psrWord State.reset.psr).extractLsb' 24 8 = 0x40 ∧
    State.reset.mmu.cntl.en = false ∧ State.reset.mmu.cntl.ie = false ∧ State.reset.mmu.cntl.sb = false ∧
    State.reset.mon.zacis = false ∧ State.reset.mon.zbcis = false ∧
    (∀ i : Fin 16, State.reset.mmu.itlb[i].lock = false) ∧ (∀ i : Fin 64, State.reset.mmu.dtlb[i].lock = false) ∧
    ∀ s : State,
      let t := watchdogReset s
      t.pc = 0 ∧ t.npc = 4 ∧ t.psr = { s.psr with s := true, et := false, de := false } ∧ t.errorMode = false ∧
        t.mmu.cntl.en = false ∧ t.mmu.cntl.bt = true ∧ t.mon.zacis = false ∧ t.mon.zbcis = false ∧ t.tbr = s.tbr ∧
        t.mem = s.mem ∧ t.dtags = s.dtags ∧ t.mon.pendA = s.mon.pendA ∧ t.mon.pendB = s.mon.pendB ∧
        t.mon.pendC = s.mon.pendC ∧ t.mon.pendD = s.mon.pendD ∧
        fetchPage t.pc t = .ok (Config.bootPage 0 ++ 0#12) t

/-! ## Integer arithmetic -/

/-- The results of the plain arithmetic and logical instructions: `x[rd]` and nothing else is written. -/
def Obligations.PlainAluResults : Prop :=
  ∀ (rd rs1 : Reg) (o : Opnd2) (s : State),
    let a := readReg rs1 s
    let b := opnd2 o s
    let c : Word := if s.psr.c then 1 else 0
    ∀ p ∈ ([(.add rd rs1 o, a + b), (.sub rd rs1 o, a - b), (.addx rd rs1 o, a + b + c), (.subx rd rs1 o, a - b - c),
        (.and rd rs1 o, a &&& b), (.andn rd rs1 o, a &&& ~~~b), (.or rd rs1 o, a ||| b), (.orn rd rs1 o, a ||| ~~~b),
        (.xor rd rs1 o, a ^^^ b), (.xnor rd rs1 o, ~~~(a ^^^ b))] : List (Instr × Word)),
      Completes p.1 s fun t =>
        Advanced s t ∧ Holds rd p.2 t ∧ Frame { slots := [slot s.psr.cwp rd] } s t

/-- ADDcc and ADDXcc: N and Z of the result, C the carry out of bit 31, V when the signed sum does not fit (R43). -/
def Obligations.AddSetsCodes : Prop :=
  ∀ (rd rs1 : Reg) (o : Opnd2) (s : State),
    let a := readReg rs1 s
    let b := opnd2 o s
    ∀ p ∈ ([(.addcc rd rs1 o, 0), (.addxcc rd rs1 o, if s.psr.c then 1 else 0)] : List (Instr × Nat)),
      let r := a + b + BitVec.ofNat 32 p.2
      Completes p.1 s fun t =>
        Advanced s t ∧ Holds rd r t ∧ t.psr.n = r.getLsbD 31 ∧ (t.psr.z = true ↔ r = 0) ∧
        (t.psr.c = true ↔ 2 ^ 32 ≤ a.toNat + b.toNat + p.2) ∧
        (t.psr.v = true ↔ a.toInt + b.toInt + p.2 < -2 ^ 31 ∨ 2 ^ 31 ≤ a.toInt + b.toInt + p.2) ∧
        Frame { slots := [slot s.psr.cwp rd], icc := true } s t

/-- SUBcc and SUBXcc: C is the borrow, V says that the signed difference does not fit (R43). -/
def Obligations.SubSetsCodes : Prop :=
  ∀ (rd rs1 : Reg) (o : Opnd2) (s : State),
    let a := readReg rs1 s
    let b := opnd2 o s
    ∀ p ∈ ([(.subcc rd rs1 o, 0), (.subxcc rd rs1 o, if s.psr.c then 1 else 0)] : List (Instr × Nat)),
      let r := a - b - BitVec.ofNat 32 p.2
      Completes p.1 s fun t =>
        Advanced s t ∧ Holds rd r t ∧ t.psr.n = r.getLsbD 31 ∧ (t.psr.z = true ↔ r = 0) ∧
        (t.psr.c = true ↔ a.toNat < b.toNat + p.2) ∧
        (t.psr.v = true ↔ a.toInt - b.toInt - p.2 < -2 ^ 31 ∨ 2 ^ 31 ≤ a.toInt - b.toInt - p.2) ∧
        Frame { slots := [slot s.psr.cwp rd], icc := true } s t

/-- The logical instructions that set codes: N and Z of the result, V and C 0. -/
def Obligations.LogicSetsCodes : Prop :=
  ∀ (rd rs1 : Reg) (o : Opnd2) (s : State),
    let a := readReg rs1 s
    let b := opnd2 o s
    ∀ p ∈ ([(.andcc rd rs1 o, a &&& b), (.andncc rd rs1 o, a &&& ~~~b), (.orcc rd rs1 o, a ||| b),
        (.orncc rd rs1 o, a ||| ~~~b), (.xorcc rd rs1 o, a ^^^ b), (.xnorcc rd rs1 o, ~~~(a ^^^ b))] :
          List (Instr × Word)),
      Completes p.1 s fun t =>
        Advanced s t ∧ Holds rd p.2 t ∧ t.psr.n = p.2.getLsbD 31 ∧ (t.psr.z = true ↔ p.2 = 0) ∧ t.psr.v = false ∧
        t.psr.c = false ∧ Frame { slots := [slot s.psr.cwp rd], icc := true } s t

/-- R301 to R303: the shifts move by the low five bits of the operand, as numbers. -/
def Obligations.ShiftResults : Prop :=
  ∀ (rd rs1 : Reg) (n : ShCount) (s : State),
    let a := readReg rs1 s
    let k := match n with
      | .reg rs2 => (readReg rs2 s).toNat % 32
      | .cnt shcnt => shcnt.toNat
    (∀ r : Word, r.toNat = a.toNat * 2 ^ k % 2 ^ 32 →
      Completes (.sll rd rs1 n) s fun t =>
        Advanced s t ∧ Holds rd r t ∧ Frame { slots := [slot s.psr.cwp rd] } s t) ∧
    (∀ r : Word, r.toNat = a.toNat / 2 ^ k →
      Completes (.srl rd rs1 n) s fun t =>
        Advanced s t ∧ Holds rd r t ∧ Frame { slots := [slot s.psr.cwp rd] } s t) ∧
    (∀ r : Word, r.toInt = a.toInt / 2 ^ k →
      Completes (.sra rd rs1 n) s fun t =>
        Advanced s t ∧ Holds rd r t ∧ Frame { slots := [slot s.psr.cwp rd] } s t)

/-- SETHI and NOP (R305, R306), with their encodings: the immediate in bits 31:10; NOP, and SETHI of `%g0`, change the
program counters alone. -/
def Obligations.SethiAndNop : Prop :=
  ∀ (rd : Reg) (imm22 : BitVec 22) (s : State),
    (Completes (.sethi rd imm22) s fun t =>
      Advanced s t ∧ (∀ v : Word, v.toNat = imm22.toNat * 1024 → Holds rd v t) ∧
      Frame { slots := [slot s.psr.cwp rd] } s t) ∧
    (Completes .nop s fun t => Advanced s t ∧ Frame {} s t) ∧
    exec (.sethi 0 imm22) s = exec .nop s ∧ encode (.sethi rd imm22) = 0#2 ++ rd ++ 4#3 ++ imm22 ∧
    encode .nop = 0x01000000

/-- R307 to R310: tagged arithmetic. V is the overflow or a tag bit; the TV forms trap tag_overflow instead of setting
V, and then write nothing. -/
def Obligations.TaggedArithmetic : Prop :=
  ∀ (rd rs1 : Reg) (o : Opnd2) (s : State),
    let a := readReg rs1 s
    let b := opnd2 o s
    ∀ p ∈ ([(.taddcc rd rs1 o, .taddcctv rd rs1 o, a + b, a.toInt + b.toInt, decide (2 ^ 32 ≤ a.toNat + b.toNat)),
        (.tsubcc rd rs1 o, .tsubcctv rd rs1 o, a - b, a.toInt - b.toInt, decide (a.toNat < b.toNat))] :
          List (Instr × Instr × Word × Int × Bool)),
      let v := (p.2.2.2.1 < -2 ^ 31 ∨ 2 ^ 31 ≤ p.2.2.2.1) ∨ a.toNat % 4 ≠ 0 ∨ b.toNat % 4 ≠ 0
      let ok (i : Instr) := Completes i s fun t =>
        Advanced s t ∧ Holds rd p.2.2.1 t ∧ t.psr.n = p.2.2.1.getLsbD 31 ∧ (t.psr.z = true ↔ p.2.2.1 = 0) ∧
        (t.psr.v = true ↔ v) ∧ t.psr.c = p.2.2.2.2 ∧ Frame { slots := [slot s.psr.cwp rd], icc := true } s t
      ok p.1 ∧ (¬ v → ok p.2.1) ∧ (v → Traps p.2.1 0x0A s)

/-- R311: one step of MULScc. -/
def Obligations.MultiplyStep : Prop :=
  ∀ (rd rs1 : Reg) (o : Opnd2) (s : State) (op1 : Word),
    let a := readReg rs1 s
    let op2 : Word := if s.y.toNat % 2 = 1 then opnd2 o s else 0
    op1.toNat = a.toNat / 2 + (if s.psr.n = s.psr.v then 0 else 2 ^ 31) →
    Completes (.mulscc rd rs1 o) s fun t =>
      Advanced s t ∧ Holds rd (op1 + op2) t ∧ t.y.toNat = s.y.toNat / 2 + a.toNat % 2 * 2 ^ 31 ∧
      t.psr.n = (op1 + op2).getLsbD 31 ∧ (t.psr.z = true ↔ op1 + op2 = 0) ∧
      (t.psr.c = true ↔ 2 ^ 32 ≤ op1.toNat + op2.toNat) ∧
      (t.psr.v = true ↔ op1.toInt + op2.toInt < -2 ^ 31 ∨ 2 ^ 31 ≤ op1.toInt + op2.toInt) ∧
      Frame { slots := [slot s.psr.cwp rd], icc := true, y := true } s t

/-- R315 to R318: the multiplies put the whole 64-bit product in Y and `x[rd]`; the cc forms take N and Z from the low
word and clear V and C. -/
def Obligations.MultiplyProducts : Prop :=
  ∀ (rd rs1 : Reg) (o : Opnd2) (s : State),
    let a := readReg rs1 s
    let b := opnd2 o s
    let plain (i : Instr) (q : BitVec 64 → Prop) := ∃ low : Word, Completes i s fun t =>
      Advanced s t ∧ Holds rd low t ∧ q (t.y ++ low) ∧ Frame { slots := [slot s.psr.cwp rd], y := true } s t
    let cc (i : Instr) (q : BitVec 64 → Prop) := ∃ low : Word, Completes i s fun t =>
      Advanced s t ∧ Holds rd low t ∧ q (t.y ++ low) ∧ t.psr.n = low.getLsbD 31 ∧ (t.psr.z = true ↔ low = 0) ∧
      t.psr.v = false ∧ t.psr.c = false ∧ Frame { slots := [slot s.psr.cwp rd], y := true, icc := true } s t
    plain (.umul rd rs1 o) (fun p => p.toNat = a.toNat * b.toNat) ∧
    plain (.smul rd rs1 o) (fun p => p.toInt = a.toInt * b.toInt) ∧
    cc (.umulcc rd rs1 o) (fun p => p.toNat = a.toNat * b.toNat) ∧
    cc (.smulcc rd rs1 o) (fun p => p.toInt = a.toInt * b.toInt)

/-- R325, R326, R331: an unsigned divide of a dividend below 2^52 by a divisor other than 0: the quotient, capped at
2^32 - 1 with V set. -/
def Obligations.UnsignedDivide : Prop :=
  ∀ (rd rs1 : Reg) (o : Opnd2) (s : State),
    let D := s.y.toNat * 2 ^ 32 + (readReg rs1 s).toNat
    let d := (opnd2 o s).toNat
    D < 2 ^ 52 → d ≠ 0 →
    ∀ r : Word, r.toNat = min (D / d) (2 ^ 32 - 1) →
      (Completes (.udiv rd rs1 o) s fun t =>
        Advanced s t ∧ Holds rd r t ∧ Frame { slots := [slot s.psr.cwp rd] } s t) ∧
      (Completes (.udivcc rd rs1 o) s fun t =>
        Advanced s t ∧ Holds rd r t ∧ t.psr.n = r.getLsbD 31 ∧ (t.psr.z = true ↔ r = 0) ∧
        (t.psr.v = true ↔ 2 ^ 32 ≤ D / d) ∧ t.psr.c = false ∧
        Frame { slots := [slot s.psr.cwp rd], icc := true } s t)

/-- R327, R328, R331: a signed divide of a dividend from -2^51 to 2^51 - 1 by a divisor other than 0: the quotient
rounded toward zero, saturated with V set. -/
def Obligations.SignedDivide : Prop :=
  ∀ (rd rs1 : Reg) (o : Opnd2) (s : State),
    let D := (s.y ++ readReg rs1 s).toInt
    let d := (opnd2 o s).toInt
    D < 2 ^ 51 → -2 ^ 51 ≤ D → d ≠ 0 →
    ∀ r : Word, r.toInt = max (-2 ^ 31) (min (D.tdiv d) (2 ^ 31 - 1)) →
      (Completes (.sdiv rd rs1 o) s fun t =>
        Advanced s t ∧ Holds rd r t ∧ Frame { slots := [slot s.psr.cwp rd] } s t) ∧
      (Completes (.sdivcc rd rs1 o) s fun t =>
        Advanced s t ∧ Holds rd r t ∧ t.psr.n = r.getLsbD 31 ∧ (t.psr.z = true ↔ r = 0) ∧
        (t.psr.v = true ↔ D.tdiv d < -2 ^ 31 ∨ 2 ^ 31 ≤ D.tdiv d) ∧ t.psr.c = false ∧
        Frame { slots := [slot s.psr.cwp rd], icc := true } s t)

/-- R330 to R332: a dividend that does not fit 52 bits traps illegal_instruction, also when the divisor is 0; a divisor
0 otherwise traps division_by_zero. R334, R812: a divide by 0 at a code breakpoint that has requested the monitor's interrupt
takes division_by_zero and not the interrupt, whatever is pending before it, and the request stays pending. -/
def Obligations.DivideTraps : Prop :=
  ∀ (rd rs1 : Reg) (o : Opnd2) (s : State),
    let U (s : State) := s.y.toNat * 2 ^ 32 + (readReg rs1 s).toNat
    let S (s : State) := (s.y ++ readReg rs1 s).toInt
    (∀ i ∈ [Instr.udiv rd rs1 o, .udivcc rd rs1 o],
      (2 ^ 52 ≤ U s → Traps i 0x02 s) ∧ (U s < 2 ^ 52 → opnd2 o s = 0 → Traps i 0x2A s)) ∧
    (∀ i ∈ [Instr.sdiv rd rs1 o, .sdivcc rd rs1 o],
      (S s < -2 ^ 51 ∨ 2 ^ 51 ≤ S s → Traps i 0x02 s) ∧
      (-2 ^ 51 ≤ S s → S s < 2 ^ 51 → opnd2 o s = 0 → Traps i 0x2A s)) ∧
    ∀ (pa : PAddr) (t : State) (i : Instr), s.errorMode = false → s.psr.et = true →
      fetchTarget (beginStep s) = .ok pa t → t.mon.pendC = true → decodeWord (fetchWord pa t).1 = .ok i →
      opnd2 o s = 0 →
      (i ∈ [Instr.udiv rd rs1 o, .udivcc rd rs1 o] ∧ U s < 2 ^ 52 ∨
        i ∈ [Instr.sdiv rd rs1 o, .sdivcc rd rs1 o] ∧ -2 ^ 51 ≤ S s ∧ S s < 2 ^ 51) →
      ∃ u, step s = .next u ∧ u.tbr.tt = 0x2A ∧ u.trapped = true ∧ readReg 17 u = s.pc ∧ readReg 18 u = s.npc ∧
        u.mon.pendC = true

/-! ## Control transfer -/

/-- R441, R445 to R460: the branches on icc, with the test of R243. The `a` bit annuls the delay instruction of a
conditional branch that is not taken, and of BA. -/
def Obligations.IntegerBranches : Prop :=
  ∀ (a : Bool) (disp22 : BitVec 22) (s : State),
    let t0 := s.pc + (disp22.signExtend 32) * 4
    let less := s.psr.n ≠ s.psr.v
    (∀ p ∈ ([(.be a disp22, s.psr.z = true), (.ble a disp22, s.psr.z = true ∨ less), (.bl a disp22, less),
        (.bleu a disp22, s.psr.c = true ∨ s.psr.z = true), (.bcs a disp22, s.psr.c = true),
        (.bneg a disp22, s.psr.n = true), (.bvs a disp22, s.psr.v = true), (.bne a disp22, ¬ s.psr.z = true),
        (.bg a disp22, ¬ (s.psr.z = true ∨ less)), (.bge a disp22, ¬ less),
        (.bgu a disp22, ¬ (s.psr.c = true ∨ s.psr.z = true)), (.bcc a disp22, ¬ s.psr.c = true),
        (.bpos a disp22, ¬ s.psr.n = true), (.bvc a disp22, ¬ s.psr.v = true), (.bn a disp22, False)] :
          List (Instr × Prop)),
      Completes p.1 s fun t =>
        Frame {} s t ∧ (p.2 → Transferred s.npc t0 s t ∧ t.condTaken = true) ∧
        (¬ p.2 → a = false → Advanced s t) ∧ (¬ p.2 → a = true → t.pc = s.npc + 4 ∧ t.npc = s.npc + 8)) ∧
    Completes (.ba a disp22) s fun t =>
      Frame {} s t ∧ (a = false → Transferred s.npc t0 s t) ∧ (a = true → Transferred t0 (t0 + 4) s t)

/-- R442, R504 to R519: the branches on fcc (0 E, 1 L, 2 G, 3 U), with the test of R244. -/
def Obligations.FloatBranches : Prop :=
  ∀ (a : Bool) (disp22 : BitVec 22) (s : State), FpReady s →
    let t0 := s.pc + (disp22.signExtend 32) * 4
    let f := s.fsr.fcc.toNat
    (∀ p ∈ ([(.fbn a disp22, []), (.fbne a disp22, [1, 2, 3]), (.fblg a disp22, [1, 2]), (.fbul a disp22, [1, 3]),
        (.fbl a disp22, [1]), (.fbug a disp22, [2, 3]), (.fbg a disp22, [2]), (.fbu a disp22, [3]),
        (.fbe a disp22, [0]), (.fbue a disp22, [0, 3]), (.fbge a disp22, [0, 2]), (.fbuge a disp22, [0, 2, 3]),
        (.fble a disp22, [0, 1]), (.fbule a disp22, [0, 1, 3]), (.fbo a disp22, [0, 1, 2])] :
          List (Instr × List Nat)),
      Completes p.1 s fun t =>
        Frame {} s t ∧ (f ∈ p.2 → Transferred s.npc t0 s t ∧ t.condTaken = true) ∧
        (f ∉ p.2 → a = false → Advanced s t) ∧ (f ∉ p.2 → a = true → t.pc = s.npc + 4 ∧ t.npc = s.npc + 8)) ∧
    Completes (.fba a disp22) s fun t =>
      Frame {} s t ∧ (a = false → Transferred s.npc t0 s t) ∧ (a = true → Transferred t0 (t0 + 4) s t)

/-- R465, R470: CALL and JMPL leave the address of the transfer in their register; a misaligned JMPL traps and writes
nothing. -/
def Obligations.CallAndJump : Prop :=
  ∀ (disp30 : BitVec 30) (rd rs1 : Reg) (o : Opnd2) (s : State),
    let t0 := readReg rs1 s + opnd2 o s
    (Completes (.call disp30) s fun t =>
      Transferred s.npc (s.pc + (disp30.setWidth 32) * 4) s t ∧ readReg 15 t = s.pc ∧
      Frame { slots := [slot s.psr.cwp 15] } s t) ∧
    (t0.toNat % 4 = 0 → Completes (.jmpl rd rs1 o) s fun t =>
      Transferred s.npc t0 s t ∧ Holds rd s.pc t ∧ Frame { slots := [slot s.psr.cwp rd] } s t) ∧
    (t0.toNat % 4 ≠ 0 → Traps (.jmpl rd rs1 o) 0x07 s)

/-- R472: RETT, its checks in their order. -/
def Obligations.ReturnFromTrap : Prop :=
  ∀ (rs1 : Reg) (o : Opnd2) (s : State),
    let t0 := readReg rs1 s + opnd2 o s
    let invalid := s.wim.getLsbD (s.psr.cwp + 1).toNat = true
    (s.psr.et = true → s.psr.s = false → Traps (.rett rs1 o) 0x03 s) ∧
    (s.psr.et = true → s.psr.s = true → Traps (.rett rs1 o) 0x02 s) ∧
    (s.psr.et = false → s.psr.s = false → Traps (.rett rs1 o) 0x03 s) ∧
    (s.psr.et = false → s.psr.s = true → invalid → Traps (.rett rs1 o) 0x06 s) ∧
    (s.psr.et = false → s.psr.s = true → ¬ invalid → t0.toNat % 4 ≠ 0 → Traps (.rett rs1 o) 0x07 s) ∧
    (s.psr.et = false → s.psr.s = true → ¬ invalid → t0.toNat % 4 = 0 →
      Completes (.rett rs1 o) s fun t =>
        Transferred s.npc t0 s t ∧ t.psr.et = true ∧ t.psr.s = s.psr.ps ∧ t.psr.ps = s.psr.ps ∧
        t.psr.cwp = s.psr.cwp + 1 ∧ Frame { mode := true, cwp := true } s t)

/-- R480, R481: SAVE and RESTORE read in the old window and write in the new one, unless WIM forbids it. -/
def Obligations.SaveAndRestore : Prop :=
  ∀ (rd rs1 : Reg) (o : Opnd2) (s : State),
    let v := readReg rs1 s + opnd2 o s
    ∀ p ∈ ([(.save rd rs1 o, s.psr.cwp - 1, 0x05), (.restore rd rs1 o, s.psr.cwp + 1, 0x06)] :
        List (Instr × BitVec 3 × TrapType)),
      (s.wim.getLsbD p.2.1.toNat = true → Traps p.1 p.2.2 s) ∧
      (s.wim.getLsbD p.2.1.toNat = false → Completes p.1 s fun t =>
        Advanced s t ∧ t.psr.cwp = p.2.1 ∧ Holds rd v t ∧ Frame { slots := [slot p.2.1 rd], cwp := true } s t)

/-- R32, R33: the ins of a window are the outs of the window above it, its locals are its own, and a write of a register
other than `%g0` is seen in every window that shares it and nowhere else. -/
def Obligations.WindowsOverlap : Prop :=
  ∀ (w w' : BitVec 3) (r q : Reg) (v : Word) (s : State),
    (24 ≤ r.toNat → slot w r = slot (w + 1) (r - 16)) ∧
    (16 ≤ r.toNat → r.toNat < 24 → slot w r = slot w' q → w = w' ∧ r = q) ∧
    (slot w r = slot w' q → r ≠ 0 → readRegIn w r (writeRegIn w' q v s) = v) ∧
    (slot w r ≠ slot w' q → readRegIn w r (writeRegIn w' q v s) = readRegIn w r s)

/-- R485 to R501: a Ticc whose condition holds traps `0x80` plus the low seven bits of its operand; otherwise it only
advances. -/
def Obligations.TrapOnCondition : Prop :=
  ∀ (rs1 : Reg) (n : TrapNum) (s : State) (tt : TrapType),
    let less := s.psr.n ≠ s.psr.v
    let b := match n with
      | .reg rs2 => (readReg rs2 s).toNat
      | .imm imm7 => imm7.toNat
    tt.toNat = 0x80 + ((readReg rs1 s).toNat + b) % 128 →
    ∀ p ∈ ([(.tn rs1 n, False), (.te rs1 n, s.psr.z = true), (.tle rs1 n, s.psr.z = true ∨ less), (.tl rs1 n, less),
        (.tleu rs1 n, s.psr.c = true ∨ s.psr.z = true), (.tcs rs1 n, s.psr.c = true), (.tneg rs1 n, s.psr.n = true),
        (.tvs rs1 n, s.psr.v = true), (.ta rs1 n, True), (.tne rs1 n, ¬ s.psr.z = true),
        (.tg rs1 n, ¬ (s.psr.z = true ∨ less)), (.tge rs1 n, ¬ less),
        (.tgu rs1 n, ¬ (s.psr.c = true ∨ s.psr.z = true)), (.tcc rs1 n, ¬ s.psr.c = true),
        (.tpos rs1 n, ¬ s.psr.n = true), (.tvc rs1 n, ¬ s.psr.v = true)] : List (Instr × Prop)),
      (p.2 → Traps p.1 tt s) ∧ (¬ p.2 → Completes p.1 s fun t => Advanced s t ∧ Frame {} s t)

/-- R462, R463, R420 to R426: every coprocessor instruction traps cp_disabled, whatever PSR.EC holds; STDCQ is
privileged first. -/
def Obligations.CoprocessorDisabled : Prop :=
  ∀ (a : Bool) (disp22 : BitVec 22) (rd rs1 rs2 : Reg) (opc : BitVec 9) (o : Opnd2) (s : State),
    (∀ i ∈ ([.cbn a disp22, .cb123 a disp22, .cb12 a disp22, .cb13 a disp22, .cb1 a disp22, .cb23 a disp22,
        .cb2 a disp22, .cb3 a disp22, .cba a disp22, .cb0 a disp22, .cb03 a disp22, .cb02 a disp22, .cb023 a disp22,
        .cb01 a disp22, .cb013 a disp22, .cb012 a disp22, .cpop1 rd rs1 opc rs2, .cpop2 rd rs1 opc rs2,
        .ldc rd rs1 o, .lddc rd rs1 o, .ldcsr rd rs1 o, .stc rd rs1 o, .stdc rd rs1 o, .stcsr rd rs1 o] : List Instr),
      Traps i 0x24 s) ∧
    (s.psr.s = true → Traps (.stdcq rd rs1 o) 0x24 s) ∧ (s.psr.s = false → Traps (.stdcq rd rs1 o) 0x03 s)

/-! ## State registers -/

/-- R520, R522 to R524, R38: what the read instructions return, in supervisor mode for all but RDY: for RDPSR each field in
its place. The operand field of RDWIM and RDTBR is not looked at (log 1). -/
def Obligations.StateRegisterReads : Prop :=
  ∀ (rd : Reg) (o : Opnd2) (s : State),
    let w : Writes := { slots := [slot s.psr.cwp rd] }
    (Completes (.rdy rd) s fun t => Advanced s t ∧ Holds rd s.y t ∧ Frame w s t) ∧
    (s.psr.s = true →
      (∃ v : Word, (Completes (.rdpsr rd) s fun t => Advanced s t ∧ Holds rd v t ∧ Frame w s t) ∧
        v.extractLsb' 24 8 = 0x40 ∧ v.getLsbD 23 = s.psr.n ∧ v.getLsbD 22 = s.psr.z ∧ v.getLsbD 21 = s.psr.v ∧
        v.getLsbD 20 = s.psr.c ∧ v.extractLsb' 16 4 = 0 ∧ v.getLsbD 15 = s.psr.de ∧ v.getLsbD 14 = false ∧
        v.getLsbD 13 = s.psr.ec ∧ v.getLsbD 12 = s.psr.ef ∧ v.extractLsb' 8 4 = s.psr.pil ∧
        v.getLsbD 7 = s.psr.s ∧ v.getLsbD 6 = s.psr.ps ∧ v.getLsbD 5 = s.psr.et ∧ v.extractLsb' 3 2 = 0 ∧
        v.extractLsb' 0 3 = s.psr.cwp) ∧
      (Completes (.rdwim ⟨rd, o⟩) s fun t => Advanced s t ∧ Holds rd (0#24 ++ s.wim) t ∧ Frame w s t) ∧
      (Completes (.rdtbr ⟨rd, o⟩) s fun t => Advanced s t ∧ Holds rd (s.tbr.tba ++ s.tbr.tt ++ 0#4) t ∧ Frame w s t))

/-- R528, R529, R531, R533, R534: what the write instructions write, `v` being the exclusive or of their operands. -/
def Obligations.StateRegisterWrites : Prop :=
  ∀ (rs1 : Reg) (o : Opnd2) (s : State),
    let v := readReg rs1 s ^^^ opnd2 o s
    (Completes (.wry rs1 o) s fun t => Advanced s t ∧ t.y = v ∧ Frame { y := true } s t) ∧
    (s.psr.s = true →
      (v.toNat % 32 < 8 → Completes (.wrpsr rs1 o) s fun t =>
        Advanced s t ∧ psrWord t.psr = (v &&& 0x00F0BFE7) ||| 0x40000000 ∧
        Frame { icc := true, cwp := true, mode := true, control := true } s t) ∧
      (8 ≤ v.toNat % 32 → Traps (.wrpsr rs1 o) 0x02 s) ∧
      (Completes (.wrwim rs1 o) s fun t => Advanced s t ∧ t.wim = v.extractLsb' 0 8 ∧ Frame { wim := true } s t) ∧
      (Completes (.wrtbr rs1 o) s fun t =>
        Advanced s t ∧ t.tbr.tba = v.extractLsb' 12 20 ∧ Frame { tba := true } s t))

/-- R765: in user mode the privileged instructions trap privileged_instruction and do nothing else. -/
def Obligations.PrivilegedInstructionsTrap : Prop :=
  ∀ (rd rs1 rs2 : Reg) (o : Opnd2) (i : Bool) (asi : Asi) (s : State), s.psr.s = false →
    ∀ x ∈ ([.rdpsr rd, .rdwim ⟨rd, o⟩, .rdtbr ⟨rd, o⟩, .wrpsr rs1 o, .wrwim rs1 o, .wrtbr rs1 o, .rett rs1 o,
        .lda rd rs1 i asi rs2, .lduba rd rs1 i asi rs2, .lduha rd rs1 i asi rs2, .ldda rd rs1 i asi rs2,
        .ldsba rd rs1 i asi rs2, .ldsha rd rs1 i asi rs2, .sta rd rs1 i asi rs2, .stba rd rs1 i asi rs2,
        .stha rd rs1 i asi rs2, .stda rd rs1 i asi rs2, .ldstuba rd rs1 i asi rs2, .swapa rd rs1 i asi rs2,
        .stdfq rd rs1 o] : List Instr),
      Traps x 0x03 s

/-- R541, R521, R530: UNIMP, RDASR and WRASR trap illegal_instruction. That UNIMP does so with a 1 in bits 29:25, its `rd`,
which R541 calls reserved and D13 advises to refuse, is the model's choice (log 51). -/
def Obligations.IllegalInstructions : Prop :=
  ∀ (rd rs1 : Reg) (const22 : BitVec 22) (o : Opnd2) (s : State),
    Traps (.unimp rd const22) 0x02 s ∧ Traps (.rdasr ⟨rd, o⟩ rs1) 0x02 s ∧ Traps (.wrasr rd rs1 o) 0x02 s

/-- R525, R540, R206: STBAR only advances; FLUSH only advances, and after it a fetch from the virtual doubleword it names
sees no replaced word (D24), nor does a fetch, at any virtual address, from the physical doubleword that a fetch or a load
at the named address would reach; a fetch from any other doubleword sees those it saw before. That FLUSH acts on both the
virtual and the physical doubleword is the model's choice (log 4). -/
def Obligations.BarrierAndFlush : Prop :=
  ∀ (rs1 : Reg) (o : Opnd2) (s : State),
    (Completes .stbar s fun t => Advanced s t ∧ Frame {} s t) ∧
    (Completes (.flush rs1 o) s fun t =>
      Advanced s t ∧ Frame { stale := true } s t ∧
      let a := readReg rs1 s + opnd2 o s
      let reached (pa : PAddr) :=
        (∃ p u, fetchPage a s = .ok p u ∧ pa.toNat / 8 = p.toNat / 8) ∨
          ∃ p u, dataPage { va := a, kind := .load, instr := false, user := !s.psr.s } s = .ok (some p) u ∧
            pa.toNat / 8 = p.pa.toNat / 8
      ∀ (va : Word) (pa : PAddr),
        (va.toNat / 8 = a.toNat / 8 ∨ reached pa → ∀ e ∈ t.stale, staleAt pa va e = false) ∧
        (¬ (va.toNat / 8 = a.toNat / 8 ∨ reached pa) →
          fetchChoices pa { t with pc := va } = fetchChoices pa { s with pc := va }))

/-! ## Traps -/

/-- R790: trap entry with ET = 1. -/
def Obligations.TrapEntry : Prop :=
  ∀ (tt : TrapType) (s : State), s.psr.et = true →
    let t := takeTrap tt s
    t.psr = { s.psr with et := false, ps := s.psr.s, s := true, cwp := s.psr.cwp - 1 } ∧
    readReg 17 t = s.pc ∧ readReg 18 t = s.npc ∧ t.tbr = { s.tbr with tt := tt } ∧
    t.pc = s.tbr.tba ++ tt ++ 0#4 ∧ t.npc = t.pc + 4 ∧
    Frame { slots := [slot (s.psr.cwp - 1) 17, slot (s.psr.cwp - 1) 18], mode := true, cwp := true, tt := true } s t

/-- R797, D34: a trap with ET = 0 halts the processor in error mode, TBR.tt the trap type and every other register as it
was; no step leaves error mode. -/
def Obligations.ErrorMode : Prop :=
  ∀ (tt : TrapType) (s : State), s.psr.et = false →
    let t := takeTrap tt s
    t.errorMode = true ∧ t.tbr.tt = tt ∧ t.pc = s.pc ∧ t.npc = s.npc ∧ t.psr = s.psr ∧
    Frame { tt := true } s { t with errorMode := s.errorMode } ∧ step t = .fault .errorMode ∧ ∀ n, ¬ SafeFor (n + 1) t

/-- R793: a trap followed by `jmpl %l1, %g0; rett %l2` resumes at the interrupted pc and npc, in the interrupted window,
mode and with traps enabled. -/
def Obligations.TrapThenReturnResumes : Prop :=
  ∀ (tt : TrapType) (s : State), s.psr.et = true → AlignedWord s.pc → AlignedWord s.npc →
    s.wim.getLsbD s.psr.cwp.toNat = false →
    ∃ t u, exec (.jmpl 0 17 (.reg 0)) (takeTrap tt s) = .next t ∧ exec (.rett 18 (.reg 0)) t = .next u ∧
      u.pc = s.pc ∧ u.npc = s.npc ∧ u.psr.cwp = s.psr.cwp ∧ u.psr.s = s.psr.s ∧ u.psr.et = true ∧
      u.psr.pil = s.psr.pil ∧ u.psr.de = s.psr.de ∧ MemKept s u

/-! ## Whole-machine rules of privilege -/

/-- R801: in user mode no instruction that does not trap changes a control register: PSR but for icc and CWP, WIM, TBR,
the control, context and pointer registers of the MMU, or the monitor, but for the event of a data breakpoint that ACTION
enables (R784). -/
def Obligations.UserModeChangesNoControlState : Prop :=
  ∀ (i : Instr) (s t : State), s.psr.s = false → s.trapped = false → exec i s = .next t → t.trapped = false →
    t.psr = { s.psr with n := t.psr.n, z := t.psr.z, v := t.psr.v, c := t.psr.c, cwp := t.psr.cwp } ∧
    t.wim = s.wim ∧ t.tbr = s.tbr ∧ t.mmu.cntl = s.mmu.cntl ∧ t.mmu.ctp = s.mmu.ctp ∧ t.mmu.ctx = s.mmu.ctx ∧
    t.mon = { s.mon with pendD := t.mon.pendD } ∧
    (t.mon.pendD = true → s.mon.pendD = true ∨ intD s.mon.action = true) ∧
    t.dtags = s.dtags ∧ t.icacheCleared = s.icacheCleared

/-- R41: no instruction but WRPSR changes PSR.DE, and no trap does. -/
def Obligations.ByteOrderChangedOnlyByWrpsr : Prop :=
  ∀ (i : Instr) (s t : State), exec i s = .next t → (∀ rs1 o, i ≠ .wrpsr rs1 o) → t.psr.de = s.psr.de

/-! ## Loads, stores and atomics -/

/-- R372 to R383, R140 to R145: the loads. The bytes are those at the target of the translation; PSR.DE xor RBO says in
which order they are read, and a little-endian doubleword is two little-endian words. -/
def Obligations.LoadResults : Prop :=
  ∀ (rd rs1 rs2 : Reg) (o : Opnd2) (asi : Asi) (a : Word) (s u : State) (p : Target), ReachesIn asi .load a s p u →
    let b (k : Nat) := byteAt u p.pa k
    let big := s.psr.de = p.rbo
    let half := if big then b 0 ++ b 1 else b 1 ++ b 0
    let word (k : Nat) := if big then b k ++ b (k + 1) ++ b (k + 2) ++ b (k + 3)
      else b (k + 3) ++ b (k + 2) ++ b (k + 1) ++ b k
    let loads (plain alt : Instr) (v : Word) := ∀ i, AccessForm plain alt rs1 rs2 o asi a s i →
      Completes i s fun t => Advanced s t ∧ Holds rd v t ∧ Frame { slots := [slot s.psr.cwp rd] } u t
    loads (.ldub rd rs1 o) (.lduba rd rs1 false asi rs2) ((b 0).setWidth 32) ∧
    loads (.ldsb rd rs1 o) (.ldsba rd rs1 false asi rs2) ((b 0).signExtend 32) ∧
    (a.toNat % 2 = 0 →
      loads (.lduh rd rs1 o) (.lduha rd rs1 false asi rs2) (half.setWidth 32) ∧
      loads (.ldsh rd rs1 o) (.ldsha rd rs1 false asi rs2) (half.signExtend 32)) ∧
    (a.toNat % 4 = 0 → loads (.ld rd rs1 o) (.lda rd rs1 false asi rs2) (word 0)) ∧
    (a.toNat % 8 = 0 → rd.getLsbD 0 = false →
      ∀ i, AccessForm (.ldd rd rs1 o) (.ldda rd rs1 false asi rs2) rs1 rs2 o asi a s i →
        Completes i s fun t => Advanced s t ∧ Holds rd (word 0) t ∧ Holds (rd ||| 1) (word 4) t ∧
          Frame { slots := [slot s.psr.cwp rd, slot s.psr.cwp (rd ||| 1)] } u t)

/-- R385 to R392, R140 to R145: the stores. The bytes of the form's width from the target up take the datum, and nothing
else in memory changes; the words with these bytes that change are those a fetch may still see as they were, beside what it
could see before (R205, D12, log 4). R148, U12, D29: the data cache never hides a store. A load that next reaches the word stored at `p`
through a target of either RBO bit sees it: the word itself if both accesses have one RBO bit, else with its bytes reversed
(R149). Left out is a load whose own walk rewrites that word, a PTE, to set R. -/
def Obligations.StoreResults : Prop :=
  ∀ (rd rs1 rs2 : Reg) (o : Opnd2) (asi : Asi) (a : Word) (s u : State) (p : Target), ReachesIn asi .store a s p u →
    Memory.wf s.mem = true →
    let v := wordBytes (readReg rd s)
    let v' := wordBytes (readReg (rd ||| 1) s)
    let big := s.psr.de = p.rbo
    let order (bs : List Byte) := if big then bs else bs.reverse
    let stores (plain alt : Instr) (bs : List Byte) := ∀ i, AccessForm plain alt rs1 rs2 o asi a s i →
      Completes i s fun t => Advanced s t ∧ Memory.readBytes t.mem p.pa.toNat bs.length = bs ∧
        Frame { bytes := byteRange p.pa.toNat bs.length } u t
    stores (.stb rd rs1 o) (.stba rd rs1 false asi rs2) (v.drop 3) ∧
    (a.toNat % 2 = 0 → stores (.sth rd rs1 o) (.stha rd rs1 false asi rs2) (order (v.drop 2))) ∧
    (a.toNat % 4 = 0 → stores (.st rd rs1 o) (.sta rd rs1 false asi rs2) (order v)) ∧
    (a.toNat % 8 = 0 → rd.getLsbD 0 = false →
      stores (.std rd rs1 o) (.stda rd rs1 false asi rs2) (order v ++ order v')) ∧
    (a.toNat % 4 = 0 → ∀ i, AccessForm (.st rd rs1 o) (.sta rd rs1 false asi rs2) rs1 rs2 o asi a s i →
      Completes i s fun t =>
        ∀ (rd' rs1' rs2' : Reg) (o' : Opnd2) (asi' : Asi) (a' : Word) (u' : State) (q : Target),
          ReachesIn asi' .load a' t q u' → q.pa = p.pa → (∀ k < 4, byteAt u' p.pa k = byteAt t p.pa k) →
          ∀ j, AccessForm (.ld rd' rs1' o') (.lda rd' rs1' false asi' rs2') rs1' rs2' o' asi' a' t j →
            Completes j t fun t' => Holds rd' (if q.rbo = p.rbo then readReg rd s else
              (readReg rd s).extractLsb' 0 8 ++ (readReg rd s).extractLsb' 8 8 ++ (readReg rd s).extractLsb' 16 8 ++
                (readReg rd s).extractLsb' 24 8) t')

/-- R410 to R413, R153: LDSTUB reads a byte and leaves 0xFF, SWAP exchanges `x[rd]` and a word; both are translated as
stores. A fetch may still see the word they change, as after a store (R205, D12, log 4). -/
def Obligations.AtomicResults : Prop :=
  ∀ (rd rs1 rs2 : Reg) (o : Opnd2) (asi : Asi) (a : Word) (s u : State) (p : Target), ReachesIn asi .store a s p u →
    Memory.wf s.mem = true →
    let b (k : Nat) := byteAt u p.pa k
    let big := s.psr.de = p.rbo
    (∀ i, AccessForm (.ldstub rd rs1 o) (.ldstuba rd rs1 false asi rs2) rs1 rs2 o asi a s i →
      Completes i s fun t => Advanced s t ∧ Holds rd ((b 0).setWidth 32) t ∧ byteAt t p.pa 0 = 0xFF ∧
        Frame { slots := [slot s.psr.cwp rd], bytes := byteRange p.pa.toNat 1 } u t) ∧
    (a.toNat % 4 = 0 →
      ∀ i, AccessForm (.swap rd rs1 o) (.swapa rd rs1 false asi rs2) rs1 rs2 o asi a s i →
        Completes i s fun t => Advanced s t ∧
          Holds rd (if big then b 0 ++ b 1 ++ b 2 ++ b 3 else b 3 ++ b 2 ++ b 1 ++ b 0) t ∧
          Memory.readBytes t.mem p.pa.toNat 4 =
            (if big then wordBytes (readReg rd s) else (wordBytes (readReg rd s)).reverse) ∧
          Frame { slots := [slot s.psr.cwp rd], bytes := byteRange p.pa.toNat 4 } u t)

/-- R371: what a load or store checks before its access. An alternate form with i = 1 and a pair form with odd `rd` are
illegal; then an address that is no multiple of the width traps mem_address_not_aligned, whatever the space. -/
def Obligations.MemoryFormTraps : Prop :=
  ∀ (rd rs1 rs2 : Reg) (o : Opnd2) (asi : Asi) (s : State),
    let a := (readReg rs1 s + opnd2 o s).toNat
    let a' := (readReg rs1 s + readReg rs2 s).toNat
    (s.psr.s = true →
      ∀ i ∈ ([.lda rd rs1 true asi rs2, .lduba rd rs1 true asi rs2, .lduha rd rs1 true asi rs2, .ldda rd rs1 true asi rs2,
          .ldsba rd rs1 true asi rs2, .ldsha rd rs1 true asi rs2, .sta rd rs1 true asi rs2, .stba rd rs1 true asi rs2,
          .stha rd rs1 true asi rs2, .stda rd rs1 true asi rs2, .ldstuba rd rs1 true asi rs2,
          .swapa rd rs1 true asi rs2] : List Instr),
        Traps i 0x02 s) ∧
    (rd.getLsbD 0 = true →
      (∀ i ∈ [Instr.ldd rd rs1 o, .std rd rs1 o], Traps i 0x02 s) ∧
      (s.psr.s = true → ∀ i ∈ [Instr.ldda rd rs1 false asi rs2, .stda rd rs1 false asi rs2], Traps i 0x02 s)) ∧
    (a % 2 ≠ 0 → ∀ i ∈ [Instr.lduh rd rs1 o, .ldsh rd rs1 o, .sth rd rs1 o], Traps i 0x07 s) ∧
    (a % 4 ≠ 0 → ∀ i ∈ [Instr.ld rd rs1 o, .st rd rs1 o, .swap rd rs1 o], Traps i 0x07 s) ∧
    (a % 8 ≠ 0 → rd.getLsbD 0 = false → ∀ i ∈ [Instr.ldd rd rs1 o, .std rd rs1 o], Traps i 0x07 s) ∧
    (s.psr.s = true →
      (a' % 2 ≠ 0 →
        ∀ i ∈ [Instr.lduha rd rs1 false asi rs2, .ldsha rd rs1 false asi rs2, .stha rd rs1 false asi rs2],
          Traps i 0x07 s) ∧
      (a' % 4 ≠ 0 →
        ∀ i ∈ [Instr.lda rd rs1 false asi rs2, .sta rd rs1 false asi rs2, .swapa rd rs1 false asi rs2],
          Traps i 0x07 s) ∧
      (a' % 8 ≠ 0 → rd.getLsbD 0 = false →
        ∀ i ∈ [Instr.ldda rd rs1 false asi rs2, .stda rd rs1 false asi rs2], Traps i 0x07 s))

/-! ## Translation -/

/-- R150, R152, R170, R171, R175, R177, R181, R183: where an access goes. An entry of a TLB matches as R181 says; whether a
supervisor page, ACC 6 or 7, matches in any context is not known (log 6). With the MMU off, `0000 :: va`; in a bypass space,
`ASI[3:0] :: va`; with the MMU on and one matching entry that permits the access, the page of that entry: of the D-TLB for
data, unless a store must first set M, and of the I-TLB for a fetch, which needs execute permission. With the MMU off in boot
mode a fetch goes to the platform's page (R166, log 12). R725, R810, R811: a breakpoint on the virtual address of a fetch, a
load or a store then either faults or, with its bit of ACTION set, requests the monitor's interrupt; in which space CSPACE
lets a code breakpoint match is not known. That ASI 0x08 and 0x09 are data accesses through the D-TLB is deduced (log 39),
that an untranslated access has RBO 0 is decision D17 (log 43; R144 gives RBO to TLB entries alone), and what breakpoints do
follows log 49: the model's choices, among them that the translation of an access or fetch which a breakpoint stops stays,
with what it wrote to memory (`MemKept u v` compares with the state `u` after the translation; R788, R810). -/
def Obligations.DataTargets : Prop :=
  (∀ (ctx va : Word) (e : TlbEntry), tlbMatches ctx va e = true ↔ Matches ctx va e) ∧
  (∀ (asi : Asi) (kind : Access) (a : Word) (s : State),
    (asi.extractLsb' 4 4 = 2 → ReachesIn asi kind a s { pa := asi.extractLsb' 0 4 ++ a, rbo := false } s) ∧
    (8 ≤ asi.toNat → asi.toNat ≤ 11 →
      let user := asi.toNat % 2 = 0
      let q : Request :=
        { va := a, kind := kind, instr := decide (asi.toNat < 10), user := decide (asi.toNat % 2 = 0) }
      let watched := s.mon.bkc.getLsbD (if kind = .store then 0 else 1) = true ∧ Watched s.mon a
      (NoDataBreak s → s.mmu.cntl.en = false → ReachesIn asi kind a s { pa := 0#4 ++ a, rbo := false } s) ∧
      (NoDataBreak s → s.mmu.cntl.en = true →
        ∀ k : Fin 64, (∀ j : Fin 64, tlbMatches s.mmu.ctx a s.mmu.dtlb[j] = true ↔ j = k) →
          let e := s.mmu.dtlb[k]
          Permitted e.acc user kind → (kind = .store → e.m = true) →
          ∃ p, ReachesIn asi kind a s { pa := p, rbo := e.rbo } s ∧ InPage e.level.toNat e.ppn a p) ∧
      ∀ (p : Target) (u : State), dataPage q s = .ok (some p) u →
        (¬ watched → ReachesIn asi kind a s p u) ∧
        (watched → s.mon.bkc.getLsbD 2 = false → ReachesIn asi kind a s p
          { u with mon := { u.mon with pendD := s.mon.pendD ||
              (s.mon.action.getLsbD 1 && s.mon.action.extractLsb' 8 4 != 0) } }) ∧
        (watched → s.mon.bkc.getLsbD 2 = true → ∃ v, memoryTarget (spaceOf asi) kind a s = .trap 0x09 v ∧
          v.mmu.far = a ∧ v.mmu.fsr.fav = true ∧ MemKept u v))) ∧
  ∀ s : State,
    let user := s.psr.s = false
    let watched := s.mon.bkc.getLsbD 3 = true ∧ Watched s.mon s.pc
    let space := Config.codeSpaceWatched (s.mon.bkc.getLsbD 6) s.psr.s
    (s.mmu.cntl.en = false → fetchPage s.pc s =
      .ok (if s.mmu.cntl.bt then Config.bootPage (s.pc.extractLsb' 12 20) ++ s.pc.extractLsb' 0 12 else 0#4 ++ s.pc) s) ∧
    (s.mmu.cntl.en = true → ∀ k : Fin 16, (∀ j : Fin 16, tlbMatches s.mmu.ctx s.pc s.mmu.itlb[j] = true ↔ j = k) →
      let e := s.mmu.itlb[k]
      Permitted e.acc user .execute → ∃ p, fetchPage s.pc s = .ok p s ∧ InPage e.level.toNat e.ppn s.pc p) ∧
    (∀ (tt : TrapType) (u : State), fetchPage s.pc s = .trap tt u → fetchTarget s = .trap tt u) ∧
    ∀ (p : PAddr) (u : State), fetchPage s.pc s = .ok p u →
      (¬ watched → fetchTarget s = .ok p u) ∧
      (watched → s.mon.bkc.getLsbD 4 = false → fetchTarget s = .ok p
        { u with mon := { u.mon with pendC := s.mon.pendC ||
            (space && s.mon.action.getLsbD 3 && s.mon.action.extractLsb' 8 4 != 0) } }) ∧
      (watched → s.mon.bkc.getLsbD 4 = true →
        if space then ∃ v, fetchTarget s = .trap 0x01 v ∧ v.mmu.fsr.fav = false ∧ v.mmu.far = u.mmu.far ∧
          v.mmu.fsr.atype = (if s.psr.s then 3 else 2) ∧ MemKept u v
        else fetchTarget s = .ok p u)

/-- R152, R176, R178 to R180: what a translation leaves alone, of a data access and of the fetch at pc. One that finds its
target may change the TLB and the level-2 pointers of its side, PTP0, the bytes of the PTE of its walk and, at a breakpoint,
whether the event is pending; a fault of the MMU, whether it traps or MCNTL.NF suppresses it, changes MFSR, MFAR for a data
access, and pointer caches; a fault of a breakpoint what both may (log 49). All else is as it was, registers and every other byte. -/
def Obligations.TranslationFrame : Prop :=
  (∀ (asi : Asi) (kind : Access) (a : Word) (s u : State),
    (∀ p : Target, ReachesIn asi kind a s p u →
      Translation true a s u ∧ u.mmu.fsr = s.mmu.fsr ∧ u.mmu.far = s.mmu.far ∧ u.mon.pendC = s.mon.pendC ∧
        (NoDataBreak s → u.mon = s.mon)) ∧
    (memoryTarget (spaceOf asi) kind a s = .ok none u →
      Translation true a s u ∧ u.mon.pendC = s.mon.pendC ∧ (NoDataBreak s → Denied true a s u ∧ u.mon = s.mon)) ∧
    ∀ tt : TrapType, memoryTarget (spaceOf asi) kind a s = .trap tt u →
      tt = 0x09 ∧ Translation true a s u ∧ u.mon = s.mon ∧ (NoDataBreak s → Denied true a s u)) ∧
  ∀ s u : State,
    let noBreak := s.mon.bkc.getLsbD 3 = false
    (∀ pa : PAddr, fetchPage s.pc s = .ok pa u →
      Translation false s.pc s u ∧ u.mmu.fsr = s.mmu.fsr ∧ u.mmu.far = s.mmu.far ∧ u.mon = s.mon) ∧
    (∀ tt : TrapType, fetchPage s.pc s = .trap tt u →
      tt = 0x01 ∧ Denied false s.pc s u ∧ u.mmu.far = s.mmu.far ∧ u.mon = s.mon) ∧
    (∀ pa : PAddr, fetchTarget s = .ok pa u →
      Translation false s.pc s u ∧ u.mmu.fsr = s.mmu.fsr ∧ u.mmu.far = s.mmu.far ∧ u.mon.pendD = s.mon.pendD ∧
        (noBreak → u.mon = s.mon)) ∧
    ∀ tt : TrapType, fetchTarget s = .trap tt u →
      tt = 0x01 ∧ Translation false s.pc s u ∧ u.mmu.far = s.mmu.far ∧ u.mon = s.mon ∧
        (noBreak → Denied false s.pc s u)

/-- R175, R177, R178, R763, R771: an access that its page does not permit, or for which the walk finds an invalid entry (FT
1) or a pointer at level 3 (FT 4), records the fault in MFSR and traps. A data access, here a word load, a word store or a
swap, which is checked as a store (R153), records its address in MFAR, has FAV 1 and traps data_access_exception; a fetch
has FAV 0, keeps MFAR and traps instruction_access_exception. Nothing is loaded or stored: the frame lets the trap write `%l1`
and `%l2` of the new window and no other register, and the MMU change in MFSR, MFAR and the pointer caches alone (R371). R57:
with MCNTL.NF = 1 the fault of a data access in a space other than 0x09 is recorded in the same way and does not trap: a load
or swap completes with a datum of which nothing is known (U20), and memory is unchanged, also by the store; that a suppressed
store stores nothing is deduced (log 10), as R57 itself has low confidence. A fetch traps whatever NF is. That ASI 0x08 and 0x09
are data accesses is deduced (log 39), and so are which denied accesses are privilege violations (FT 3) and which protection
errors (FT 2) (log 45), and that OW says whether FT was not 0 (log 38); that a denied walk writes nothing to memory is the
model's choice (log 26). -/
def Obligations.DeniedLoadIsRecorded : Prop :=
  ∀ (rd rs1 rs2 : Reg) (o : Opnd2) (asi : Asi) (a : Word) (s : State), s.mmu.cntl.en = true →
    let denied (user : Prop) (kind : Access) (e : TlbEntry) (ft : BitVec 3) :=
      ¬ Permitted e.acc user kind ∧ DenialType e.acc user ft
    let noted (ft : BitVec 3) (l : Nat) (t : State) :=
      t.mmu.fsr.ow = decide (s.mmu.fsr.ftype ≠ 0) ∧ t.mmu.fsr.ftype = ft ∧ t.mmu.fsr.level.toNat = l
    let entered (tt : TrapType) (t : State) :=
      t.trapped = true ∧ t.tbr.tt = tt ∧ t.pc = s.tbr.tba ++ tt ++ 0#4 ∧ t.npc = t.pc + 4 ∧
      t.psr = { s.psr with et := false, ps := s.psr.s, s := true, cwp := s.psr.cwp - 1 } ∧
      readReg 17 t = s.pc ∧ readReg 18 t = s.npc ∧
      Frame { slots := [slot (s.psr.cwp - 1) 17, slot (s.psr.cwp - 1) 18], mode := true, cwp := true, tt := true,
              mmu := true } s t
    (8 ≤ asi.toNat → asi.toNat ≤ 11 → a.toNat % 4 = 0 →
      let user := asi.toNat % 2 = 0
      let recorded (kind : Access) (ft : BitVec 3) (l : Nat) :=
        let left (t : State) := noted ft l t ∧ t.mmu.far = a ∧ t.mmu.fsr.fav = true ∧
          t.mmu.fsr.atype.toNat = (if kind = .store then 4 else 0) + (if asi.toNat < 10 then 2 else 0) +
            (if user then 0 else 1) ∧
          t.mmu = { s.mmu with fsr := t.mmu.fsr, far := a, ptp0 := t.mmu.ptp0, dptp2 := t.mmu.dptp2 }
        ∀ q ∈ ([(.load, [slot s.psr.cwp rd], .ld rd rs1 o, .lda rd rs1 false asi rs2),
            (.store, [], .st rd rs1 o, .sta rd rs1 false asi rs2),
            (.store, [slot s.psr.cwp rd], .swap rd rs1 o, .swapa rd rs1 false asi rs2)] :
              List (Access × List Nat × Instr × Instr)),
          q.1 = kind → ∀ i, AccessForm q.2.2.1 q.2.2.2 rs1 rs2 o asi a s i →
            (s.psr.et = true → s.mmu.cntl.nf = false ∨ asi = 0x09 → ∃ t, exec i s = .next t ∧ entered 0x09 t ∧ left t) ∧
            (s.mmu.cntl.nf = true → asi ≠ 0x09 → NoDataBreak s → Completes i s fun t =>
              Advanced s t ∧ t.trapped = s.trapped ∧ left t ∧ Frame { slots := q.2.1, mmu := true } s t)
      ∀ kind ∈ [Access.load, .store],
        (∀ (k : Fin 64) (ft : BitVec 3), (∀ j : Fin 64, tlbMatches s.mmu.ctx a s.mmu.dtlb[j] = true ↔ j = k) →
          denied user kind s.mmu.dtlb[k] ft → recorded kind ft s.mmu.dtlb[k].level.toNat) ∧
        ((∀ j : Fin 64, tlbMatches s.mmu.ctx a s.mmu.dtlb[j] = false) → (∃ j : Fin 64, s.mmu.dtlb[j].lock = false) →
          ∀ (k j : Nat) (e : Word) (read : Bool) (ft : BitVec 3), WalkStarts true a s k e read → WalkEnds s a k e j →
            WalkFails (k + j) (below s a k e j) user kind ft → recorded kind ft (k + j))) ∧
    (s.psr.et = true →
      let user := s.psr.s = false
      let recorded (ft : BitVec 3) (l : Nat) := ∃ t, runInstruction s = .next t ∧ entered 0x01 t ∧ noted ft l t ∧
        t.mmu.fsr.fav = false ∧ t.mmu.fsr.atype = (if s.psr.s then 3 else 2) ∧
        t.mmu = { s.mmu with fsr := t.mmu.fsr, ptp0 := t.mmu.ptp0, iptp2 := t.mmu.iptp2 }
      (∀ (k : Fin 16) (ft : BitVec 3), (∀ j : Fin 16, tlbMatches s.mmu.ctx s.pc s.mmu.itlb[j] = true ↔ j = k) →
        denied user .execute s.mmu.itlb[k] ft → recorded ft s.mmu.itlb[k].level.toNat) ∧
      ((∀ j : Fin 16, tlbMatches s.mmu.ctx s.pc s.mmu.itlb[j] = false) → (∃ j : Fin 16, s.mmu.itlb[j].lock = false) →
        ∀ (k j : Nat) (e : Word) (read : Bool) (ft : BitVec 3), WalkStarts false s.pc s k e read → WalkEnds s s.pc k e j →
          WalkFails (k + j) (below s s.pc k e j) user .execute ft → recorded ft (k + j)))

/-- R152, R174 to R176, R179, R180: an access that misses its TLB walks from the entry of the context table, from PTP0, or from
the one level-2 pointer cache that serves, to a PTE at level 0, 1, 2 or 3. When the PTE permits it, the access goes to the
page of that level, R (and M for a store) is set in memory, an unlocked entry of the TLB becomes that of the PTE, and the
pointers read are cached. A store that hits a D-TLB entry with M = 0 walks to the PTE, sets R and M in it and M in the entry,
and goes to the entry's page. A pointer of level 2 goes to the first invalid D_PTP2 entry, and to any when all four are valid
(R70, log 5). That ASI 0x08 and 0x09 walk for the D-TLB is deduced (log 39), and so is that PTP0 caches the entry of the
context table (log 44). That this store's permission and page are the entry's (log 27), and that the tag of a new entry is
va[31:12] at every level (log 53), are the model's choices. -/
def Obligations.TableWalk : Prop :=
  ∀ (asi : Asi) (kind : Access) (a : Word) (s : State), s.mmu.cntl.en = true → Memory.wf s.mem = true →
    ∀ (k j : Nat) (e : Word) (read : Bool),
      let pte := below s a k e j
      let at_ := belowAddr s a k e j
      let used := pte ||| 0x20 ||| (if kind = .store then 0x40 else 0)
      WalkEnds s a k e j → pte.getLsbD 1 = true →
      (8 ≤ asi.toNat → asi.toNat ≤ 11 → NoDataBreak s → WalkStarts true a s k e read →
        let user := asi.toNat % 2 = 0
        ((∀ i : Fin 64, tlbMatches s.mmu.ctx a s.mmu.dtlb[i] = false) → (∃ i : Fin 64, s.mmu.dtlb[i].lock = false) →
          Permitted (pte.extractLsb' 2 3) user kind →
          ∃ u p, ReachesIn asi kind a s { pa := p, rbo := pte.getLsbD 0 } u ∧ InPage (k + j) (pte.extractLsb' 8 24) a p ∧
            memWord u.mem at_ = used ∧ PointersCached true a s u k e read j ∧
            ∃ v : Fin 64, s.mmu.dtlb[v].lock = false ∧
              u.mmu.dtlb = s.mmu.dtlb.set v (entryFrom true a s.mmu.ctx (k + j) used)) ∧
        (kind = .store → ∀ h : Fin 64, (∀ i : Fin 64, tlbMatches s.mmu.ctx a s.mmu.dtlb[i] = true ↔ i = h) →
          let entry := s.mmu.dtlb[h]
          entry.m = false → Permitted entry.acc user .store →
          ∃ u p, ReachesIn asi .store a s { pa := p, rbo := entry.rbo } u ∧ InPage entry.level.toNat entry.ppn a p ∧
            memWord u.mem at_ = used ∧ PointersCached true a s u k e read j ∧
            u.mmu.dtlb = s.mmu.dtlb.set h { entry with m := true })) ∧
      (WalkStarts false a s k e read → kind = .execute →
        (∀ i : Fin 16, tlbMatches s.mmu.ctx a s.mmu.itlb[i] = false) → (∃ i : Fin 16, s.mmu.itlb[i].lock = false) →
        Permitted (pte.extractLsb' 2 3) (s.psr.s = false) .execute →
        ∃ u p, fetchPage a s = .ok p u ∧ InPage (k + j) (pte.extractLsb' 8 24) a p ∧ memWord u.mem at_ = used ∧
          PointersCached false a s u k e read j ∧ u.mmu.dtlb = s.mmu.dtlb ∧
          ∃ v : Fin 16, s.mmu.itlb[v].lock = false ∧
            u.mmu.itlb = s.mmu.itlb.set v (entryFrom false a s.mmu.ctx (k + j) used))

/-! ## Address spaces that are not memory -/

/-- R646 to R656: flush and probe. A flush clears V of the entries it names, locked ones too, whose Lock it keeps (R648,
D41), and drops the cached pointers its type names (D6); one of type 5 to 7 does nothing. A probe walks the tables in
memory: type 0 to 3 returns the entry of level 3 to 0, type 4 the PTE the walk ends at, each 0 if there is none; type 5
to 7 traps, by the model's choice with nothing recorded in MFSR and MFAR (log 23). Only a type-4 probe may load what it found
(R655, D7), and what it may then change follows log 25. -/
def Obligations.FlushAndProbe : Prop :=
  ∀ (rd rs1 rs2 : Reg) (s : State), s.psr.s = true →
    let a := readReg rs1 s + readReg rs2 s
    let type := (a.extractLsb' 8 3).toNat
    let e0 := memWord s.mem ((s.mmu.ctp ++ 0#6) + s.mmu.ctx.setWidth 36 * 4)
    let e1 := memWord s.mem (e0.extractLsb' 6 26 ++ a.extractLsb' 24 8 ++ 0#2)
    let e2 := memWord s.mem (e1.extractLsb' 4 28 ++ a.extractLsb' 18 6 ++ 0#2)
    let e3 := memWord s.mem (e2.extractLsb' 4 28 ++ a.extractLsb' 12 6 ++ 0#2)
    let pointer (e : Word) : Prop := e.extractLsb' 0 2 = 1
    let hit (e : TlbEntry) : Prop :=
      (type = 0 ∧ e.level = 3 ∧ e.vtag = a.extractLsb' 12 20 ∧ (e.ctx = s.mmu.ctx ∨ 6 ≤ e.acc.toNat)) ∨
      (type = 1 ∧ 2 ≤ e.level.toNat ∧ e.vtag.extractLsb' 6 14 = a.extractLsb' 18 14 ∧
        (e.ctx = s.mmu.ctx ∨ 6 ≤ e.acc.toNat)) ∨
      (type = 2 ∧ 1 ≤ e.level.toNat ∧ e.vtag.extractLsb' 12 8 = a.extractLsb' 24 8 ∧
        (e.ctx = s.mmu.ctx ∨ 6 ≤ e.acc.toNat)) ∨
      (type = 3 ∧ e.ctx = s.mmu.ctx ∧ e.acc.toNat ≤ 5) ∨ type = 4
    let returns (v : Word) := Completes (.lda rd rs1 false 0x03 rs2) s fun t => Advanced s t ∧ Holds rd v t ∧
      Frame { slots := [slot s.psr.cwp rd], mmu := decide (type = 4) } s t ∧
      t.mmu = { s.mmu with ptp0 := t.mmu.ptp0, dptp2 := t.mmu.dptp2, dtlb := t.mmu.dtlb } ∧
      ((∃ j : Fin 64, tlbMatches s.mmu.ctx a s.mmu.dtlb[j] = true) → t.mmu = s.mmu) ∧ (v = 0 → t.mmu = s.mmu)
    let found (above : Prop) (e : Word) (stands : Prop) := (above → stands → returns e) ∧ (¬ (above ∧ stands) → returns 0)
    a.toNat % 4 = 0 →
    (Completes (.sta rd rs1 false 0x03 rs2) s fun t => Advanced s t ∧ Frame { mmu := true } s t ∧
      t.mmu.cntl = s.mmu.cntl ∧ t.mmu.ctp = s.mmu.ctp ∧ t.mmu.ctx = s.mmu.ctx ∧ t.mmu.fsr = s.mmu.fsr ∧
      t.mmu.far = s.mmu.far ∧
      (∀ k : Fin 64, (hit s.mmu.dtlb[k] → t.mmu.dtlb[k] = { s.mmu.dtlb[k] with v := false }) ∧
        (¬ hit s.mmu.dtlb[k] → t.mmu.dtlb[k] = s.mmu.dtlb[k])) ∧
      (∀ k : Fin 16, (hit s.mmu.itlb[k] → t.mmu.itlb[k] = { s.mmu.itlb[k] with v := false }) ∧
        (¬ hit s.mmu.itlb[k] → t.mmu.itlb[k] = s.mmu.itlb[k])) ∧
      (1 ≤ type → type ≤ 4 → t.mmu.iptp2.valid = 0 ∧ ∀ k : Fin 4, t.mmu.dptp2[k].valid = 0) ∧
      (3 ≤ type → type ≤ 4 → t.mmu.ptp0.valid = 0) ∧ (type ≤ 2 → t.mmu.ptp0 = s.mmu.ptp0) ∧
      (type = 0 → t.mmu.iptp2 = s.mmu.iptp2 ∧ t.mmu.dptp2 = s.mmu.dptp2) ∧ (5 ≤ type → t.mmu = s.mmu)) ∧
    (5 ≤ type → Traps (.lda rd rs1 false 0x03 rs2) 0x09 s) ∧
    (type = 3 → found True e0 (e0.extractLsb' 0 2 ≠ 0)) ∧
    (type = 2 → found (pointer e0) e1 (e1.extractLsb' 0 2 ≠ 0)) ∧
    (type = 1 → found (pointer e0 ∧ pointer e1) e2 (e2.extractLsb' 0 2 ≠ 0)) ∧
    (type = 0 → found (pointer e0 ∧ pointer e1 ∧ pointer e2) e3 (e3.getLsbD 1 = true)) ∧
    (type = 4 →
      (e0.getLsbD 1 = true → returns e0) ∧ (e0.extractLsb' 0 2 = 0 → returns 0) ∧
      (pointer e0 → (e1.getLsbD 1 = true → returns e1) ∧ (e1.extractLsb' 0 2 = 0 → returns 0) ∧
        (pointer e1 → (e2.getLsbD 1 = true → returns e2) ∧ (e2.extractLsb' 0 2 = 0 → returns 0) ∧
          (pointer e2 → found True e3 (e3.getLsbD 1 = true)))))

/-- R660 to R668: the MMU registers of ASI 0x04. Writing MCTP or MCTX empties the pointer caches (D43); reading MFSR clears
it; MSFSR is absent and traps, by the model's choice with nothing recorded (log 23); what the source does not describe is
refused. A store of MCNTL that switches on a cache
whose valid bits software has not reset is refused (R72, R73). The address of MCTX and the layout of MFSR (R60) are
PRESUMED (log 28), and the reserved bits of MCTP read as nothing known (log 9). R674 to R679: the words of the TLB entries
and the pointer caches in ASI 0x05 and 0x06. That bits 5:2 of the PTP0 word read 0 is read from D44, which says it of bits
3:2 of a PTP2 word, and that the reserved bits of the tag word read 0 is the model's choice (both log 48); that M reads 0 and
is not stored in the I-TLB is decision D35; that none of these accesses is byte-swapped, whatever PSR.DE is, is decision D16
(log 43). R705, R712: the tags of the data cache in ASI 0x0E, which while the cache is on are not known, and the flash
clears; that the Rsvd fields of a tag read 0, as R705 says, where 93_implementation_defined.md says any value, is the model's
choice (both log 20). -/
def Obligations.MmuRegisters : Prop :=
  ∀ (rd rs1 rs2 : Reg) (s : State), s.psr.s = true →
    let a := readReg rs1 s + readReg rs2 s
    let v := readReg rd s
    let v' := readReg (rd ||| 1) s
    let store (q : State → Prop) := Completes (.sta rd rs1 false 0x04 rs2) s fun t => Advanced s t ∧ q t
    let load (w : Writes) (q : State → Prop) := Completes (.lda rd rs1 false 0x04 rs2) s fun t =>
      Advanced s t ∧ Frame { w with slots := [slot s.psr.cwp rd] } s t ∧ q t
    let uncleared :=
      (v.getLsbD 9 = true ∧ s.mmu.cntl.ie = false ∧ s.icacheCleared = false) ∨
        (v.getLsbD 8 = true ∧ s.mmu.cntl.de = false ∧ ∃ k : Fin 512, s.dtags[k].cleared = false)
    (a = 0x000 →
      (uncleared → exec (.sta rd rs1 false 0x04 rs2) s = .refused .cacheNotCleared) ∧
      (¬ uncleared → store (fun t => Frame { mmu := true, dtags := true } s t ∧
        t.icacheCleared = s.icacheCleared ∧ (s.mmu.cntl.de = false ∨ v.getLsbD 8 = true → t.dtags = s.dtags) ∧
        t.mmu = { s.mmu with cntl := t.mmu.cntl } ∧
        t.mmu.cntl.en = v.getLsbD 0 ∧ t.mmu.cntl.nf = v.getLsbD 1 ∧ t.mmu.cntl.pso = v.getLsbD 7 ∧
        t.mmu.cntl.de = v.getLsbD 8 ∧ t.mmu.cntl.ie = v.getLsbD 9 ∧ t.mmu.cntl.sb = v.getLsbD 10 ∧
        t.mmu.cntl.pe = v.getLsbD 12 ∧ t.mmu.cntl.bt = v.getLsbD 13 ∧ t.mmu.cntl.se = v.getLsbD 14 ∧
        t.mmu.cntl.ac = v.getLsbD 15 ∧ t.mmu.cntl.tc = v.getLsbD 16)) ∧
      load {} (fun t => ∃ w : Word, Holds rd w t ∧ w.getLsbD 0 = s.mmu.cntl.en ∧ w.getLsbD 1 = s.mmu.cntl.nf ∧
        w.getLsbD 7 = s.mmu.cntl.pso ∧ w.getLsbD 8 = s.mmu.cntl.de ∧ w.getLsbD 9 = s.mmu.cntl.ie ∧
        w.getLsbD 10 = s.mmu.cntl.sb ∧ w.getLsbD 11 = false ∧ w.getLsbD 12 = s.mmu.cntl.pe ∧
        w.getLsbD 13 = s.mmu.cntl.bt ∧ w.getLsbD 14 = s.mmu.cntl.se ∧ w.getLsbD 15 = s.mmu.cntl.ac ∧
        w.getLsbD 16 = s.mmu.cntl.tc ∧ w.extractLsb' 24 4 = (if Config.stp1021A then 0xA else 0x8) ∧
        w.extractLsb' 28 4 = 0)) ∧
    (a = 0x100 →
      store (fun t => Frame { mmu := true } s t ∧ t.mmu.ctp = v.extractLsb' 2 30 ∧ t.mmu.ctx = s.mmu.ctx ∧
        t.mmu.cntl = s.mmu.cntl ∧ t.mmu.dtlb = s.mmu.dtlb ∧ t.mmu.itlb = s.mmu.itlb ∧ t.mmu.ptp0.valid = 0 ∧
        t.mmu.iptp2.valid = 0 ∧ ∀ k : Fin 4, t.mmu.dptp2[k].valid = 0) ∧
      load {} (fun t => ∃ w : Word, Holds rd w t ∧ w.extractLsb' 2 30 = s.mmu.ctp)) ∧
    (a = 0x200 →
      store (fun t => Frame { mmu := true } s t ∧ t.mmu.ctx.toNat = v.toNat % 2 ^ Config.ctxBits.val ∧
        t.mmu.ctp = s.mmu.ctp ∧
        t.mmu.cntl = s.mmu.cntl ∧ t.mmu.dtlb = s.mmu.dtlb ∧ t.mmu.itlb = s.mmu.itlb ∧ t.mmu.ptp0.valid = 0 ∧
        t.mmu.iptp2.valid = 0 ∧ ∀ k : Fin 4, t.mmu.dptp2[k].valid = 0) ∧
      load {} (fun t => Holds rd s.mmu.ctx t)) ∧
    (a = 0x300 →
      load { mmu := true } (fun t => ∃ w : Word, Holds rd w t ∧ w.getLsbD 0 = s.mmu.fsr.ow ∧
        w.getLsbD 1 = s.mmu.fsr.fav ∧ w.extractLsb' 2 3 = s.mmu.fsr.ftype ∧ w.extractLsb' 5 3 = s.mmu.fsr.atype ∧
        w.extractLsb' 8 2 = s.mmu.fsr.level ∧ w.extractLsb' 10 22 = s.mmu.fsr.high ∧
        t.mmu.fsr.ftype = 0 ∧ t.mmu.fsr.ow = false ∧ t.mmu.fsr.fav = false ∧ t.mmu.fsr.atype = 0 ∧
        t.mmu.fsr.level = 0 ∧ t.mmu.fsr.high = 0 ∧ t.mmu = { s.mmu with fsr := t.mmu.fsr })) ∧
    (a = 0x400 → load {} (fun t => Holds rd s.mmu.far t)) ∧
    (a = 0x300 ∨ a = 0x400 → exec (.sta rd rs1 false 0x04 rs2) s = .refused .undescribedDirection) ∧
    (a = 0x1500 → Traps (.lda rd rs1 false 0x04 rs2) 0x09 s ∧ Traps (.sta rd rs1 false 0x04 rs2) 0x09 s) ∧
    (a.toNat % 4 = 0 → a.toNat ∉ [0x000, 0x100, 0x200, 0x300, 0x400, 0x1500] →
      exec (.lda rd rs1 false 0x04 rs2) s = .refused .asiRegister ∧
      exec (.sta rd rs1 false 0x04 rs2) s = .refused .asiRegister) ∧
    (a.toNat % 4 = 0 →
      (∀ k : Fin 64, k.val = a.toNat / 4096 % 64 →
        EntryAccesses true 0x06 rd rs1 rs2 s s.mmu.dtlb (fun x => { s.mmu with dtlb := x }) k) ∧
      (∀ k : Fin 16, k.val = a.toNat / 4096 % 16 →
        EntryAccesses false 0x05 rd rs1 rs2 s s.mmu.itlb (fun x => { s.mmu with itlb := x }) k) ∧
      (∀ k : Fin 4, k.val = a.toNat / 4096 % 4 →
        PointerAccesses 0x06 rd rs1 rs2 s s.mmu.dptp2[k] (fun p => { s.mmu with dptp2 := s.mmu.dptp2.set k p })) ∧
      PointerAccesses 0x05 rd rs1 rs2 s s.mmu.iptp2 (fun p => { s.mmu with iptp2 := p }) ∧
      ∀ asi ∈ ([0x05, 0x06] : List Asi),
        ((a.extractLsb' 8 3).toNat = 4 →
          ReadsWord asi rd rs1 rs2 s (· = s.mmu.ptp0.ptr ++ 0#4 ++ s.mmu.ptp0.valid) ∧
          (v.getLsbD 1 = true → exec (.sta rd rs1 false asi rs2) s = .refused .ptpValid) ∧
          (v.getLsbD 1 = false →
            WritesMmu asi rd rs1 rs2 s
              { s.mmu with ptp0 := { ptr := v.extractLsb' 6 26, valid := v.extractLsb' 0 2 } })) ∧
        ((a.extractLsb' 8 3).toNat ∈ [0, 1, 7] →
          exec (.lda rd rs1 false asi rs2) s = .refused .tlbSelect ∧
          exec (.sta rd rs1 false asi rs2) s = .refused .tlbSelect)) ∧
    (a.toNat % 8 = 0 → rd.getLsbD 0 = false →
      let k := Config.dcacheLine a
      (Completes (.stda rd rs1 false 0x0E rs2) s fun t => Advanced s t ∧ Frame { dtags := true } s t ∧
        t.icacheCleared = s.icacheCleared ∧
        t.dtags = s.dtags.set k { v := v.getLsbD 24, paddr := v'.extractLsb' 0 24,
                                  cleared := s.dtags[k].cleared || !v.getLsbD 24 }) ∧
      (Completes (.ldda rd rs1 false 0x0E rs2) s fun t => Advanced s t ∧
        Frame { slots := [slot s.psr.cwp rd, slot s.psr.cwp (rd ||| 1)] } s t ∧
        ∃ (valid : Bool) (paddr : BitVec 24), Holds rd (0#7 ++ BitVec.ofBool valid ++ 0#24) t ∧
          Holds (rd ||| 1) (0#8 ++ paddr) t ∧
          (s.mmu.cntl.de = false → valid = s.dtags[k].v ∧ paddr = s.dtags[k].paddr))) ∧
    (a.toNat % 4 = 0 →
      (Completes (.sta rd rs1 false 0x36 rs2) s fun t => Advanced s t ∧ Frame { dtags := true } s t ∧
        t.dtags = s.dtags ∧ t.icacheCleared = true) ∧
      (Completes (.sta rd rs1 false 0x37 rs2) s fun t => Advanced s t ∧ Frame { dtags := true } s t ∧
        t.icacheCleared = s.icacheCleared ∧
        ∀ k : Fin 512, t.dtags[k] = { s.dtags[k] with v := false, cleared := true }) ∧
      ∀ asi ∈ ([0x36, 0x37] : List Asi), exec (.lda rd rs1 false asi rs2) s = .refused .undescribedDirection)

/-- R133, R722 to R738: Kernel, CounterA, CounterB and CTRC are read and written by word accesses, where a counter that counts
cycles reads as nothing known (R820, log 19), reading CTRS clears it, and ACTION, BKV, BKM and BKC by doubleword accesses; the settings that the spec gives no meaning are refused: PAMD (R723),
a reserved counter selection (R734), the interrupt of a cycle counter (R820). A store of ACTION writes its bits 12:0 (R738);
that it takes MIX, of unknown function, where N25 advises a refusal, is the model's choice (log 50). That BKC takes the other
settings, which R725 advises a model to refuse, is the model's choice (log 49). An access of any width in an address space
that the chip does not implement traps data_access_exception (D14), by the model's choice with nothing recorded (log 23).
That the address selects nothing in ASI 0x48 to 0x4C is the model's choice (log 47), that the reserved bits of CTRC and
ACTION read 0 too (log 48), that an enable which counts no mode is no cycle count as well (log 40); that clearing an enable of ACTION withdraws its pending interrupt is decision D19. The addresses in
ASI 0x38 are PRESUMED (log 28). -/
def Obligations.MonitorRegisters : Prop :=
  ∀ (rd rs1 rs2 : Reg) (asi : Asi) (s : State), s.psr.s = true →
    let a := (readReg rs1 s + readReg rs2 s).toNat
    let v := readReg rd s
    let v' := readReg (rd ||| 1) s
    let frame (t : State) := Frame { slots := [slot s.psr.cwp rd] } s t
    let countsCycles (enable : Bool) (sel : BitVec 8) (user kernel : Bool) :=
      enable = true ∧ sel = 0 ∧ (user = true ∨ kernel = true)
    let writes (i : Instr) (m : Monitor) := Completes i s fun t => Advanced s t ∧ Frame { monitor := true } s t ∧ t.mon = m
    let reads (i : Instr) (w : Word) := Completes i s fun t => Advanced s t ∧ Holds rd 0 t ∧ Holds (rd ||| 1) w t ∧
      Frame { slots := [slot s.psr.cwp rd, slot s.psr.cwp (rd ||| 1)] } s t
    (a % 4 = 0 →
      writes (.sta rd rs1 false 0x40 rs2) { s.mon with kernel := v } ∧
      (Completes (.lda rd rs1 false 0x40 rs2) s fun t => Advanced s t ∧ Holds rd s.mon.kernel t ∧ frame t) ∧
      (Completes (.sta rd rs1 false 0x48 rs2) s fun t => Advanced s t ∧ Frame { monitor := true } s t ∧
        t.mon = { s.mon with counterA := v } ∧ t.wroteA = true) ∧
      (Completes (.sta rd rs1 false 0x49 rs2) s fun t => Advanced s t ∧ Frame { monitor := true } s t ∧
        t.mon = { s.mon with counterB := v } ∧ t.wroteB = true) ∧
      (Completes (.lda rd rs1 false 0x48 rs2) s fun t => Advanced s t ∧ frame t ∧
        (¬ countsCycles s.mon.ctrc.aen s.mon.ctrc.selA s.mon.ctrc.ua s.mon.ctrc.ka → Holds rd s.mon.counterA t)) ∧
      (Completes (.lda rd rs1 false 0x49 rs2) s fun t => Advanced s t ∧ frame t ∧
        (¬ countsCycles s.mon.ctrc.ben s.mon.ctrc.selB s.mon.ctrc.ub s.mon.ctrc.kb → Holds rd s.mon.counterB t)) ∧
      (Completes (.lda rd rs1 false 0x4A rs2) s fun t => Advanced s t ∧ frame t ∧
        ∃ w : Word, Holds rd w t ∧ w.extractLsb' 24 8 = s.mon.ctrc.selA ∧ w.getLsbD 23 = s.mon.ctrc.ua ∧
          w.getLsbD 22 = s.mon.ctrc.ka ∧ w.getLsbD 21 = s.mon.ctrc.aen ∧ w.extractLsb' 16 5 = 0 ∧
          w.extractLsb' 8 8 = s.mon.ctrc.selB ∧ w.getLsbD 7 = s.mon.ctrc.ub ∧ w.getLsbD 6 = s.mon.ctrc.kb ∧
          w.getLsbD 5 = s.mon.ctrc.ben ∧ w.extractLsb' 0 5 = 0) ∧
      (let badSelect := 2 ≤ (v.extractLsb' 24 8).toNat ∨ 2 ≤ (v.extractLsb' 8 8).toNat
      let cycleInt :=
        (countsCycles (v.getLsbD 21) (v.extractLsb' 24 8) (v.getLsbD 23) (v.getLsbD 22) ∧ s.mon.action.getLsbD 2 = true) ∨
        (countsCycles (v.getLsbD 5) (v.extractLsb' 8 8) (v.getLsbD 7) (v.getLsbD 6) ∧ s.mon.action.getLsbD 0 = true)
      (badSelect → exec (.sta rd rs1 false 0x4A rs2) s = .refused .counterSelect) ∧
      (¬ badSelect → cycleInt → exec (.sta rd rs1 false 0x4A rs2) s = .refused .cycleCounterInterrupt) ∧
      (¬ badSelect → ¬ cycleInt → writes (.sta rd rs1 false 0x4A rs2)
        { s.mon with
          ctrc := { selA := v.extractLsb' 24 8, ua := v.getLsbD 23, ka := v.getLsbD 22, aen := v.getLsbD 21,
                    selB := v.extractLsb' 8 8, ub := v.getLsbD 7, kb := v.getLsbD 6, ben := v.getLsbD 5 } })) ∧
      (Completes (.lda rd rs1 false 0x4B rs2) s fun t => Advanced s t ∧
        (∀ w : Word, w.toNat = 2 * s.mon.zacis.toNat + s.mon.zbcis.toNat → Holds rd w t) ∧
        t.mon = { s.mon with zacis := false, zbcis := false } ∧
        Frame { slots := [slot s.psr.cwp rd], monitor := true } s t) ∧
      exec (.sta rd rs1 false 0x4B rs2) s = .refused .undescribedDirection) ∧
    (a % 8 = 0 → rd.getLsbD 0 = false →
      reads (.ldda rd rs1 false 0x4C rs2) (0#19 ++ s.mon.action) ∧
      (let c := s.mon.ctrc
      let cycleInt :=
        (countsCycles c.aen c.selA c.ua c.ka ∧ v'.getLsbD 2 = true) ∨
        (countsCycles c.ben c.selB c.ub c.kb ∧ v'.getLsbD 0 = true)
      (cycleInt → exec (.stda rd rs1 false 0x4C rs2) s = .refused .cycleCounterInterrupt) ∧
      (¬ cycleInt → writes (.stda rd rs1 false 0x4C rs2)
        { s.mon with action := v'.extractLsb' 0 13, pendA := s.mon.pendA && v'.getLsbD 2,
                     pendB := s.mon.pendB && v'.getLsbD 0, pendC := s.mon.pendC && v'.getLsbD 3,
                     pendD := s.mon.pendD && v'.getLsbD 1 })) ∧
      (a = 0x000 → reads (.ldda rd rs1 false 0x38 rs2) s.mon.bkv ∧
        writes (.stda rd rs1 false 0x38 rs2) { s.mon with bkv := v' }) ∧
      (a = 0x100 → reads (.ldda rd rs1 false 0x38 rs2) s.mon.bkm ∧
        writes (.stda rd rs1 false 0x38 rs2) { s.mon with bkm := v' }) ∧
      (a = 0x200 → reads (.ldda rd rs1 false 0x38 rs2) (0#25 ++ s.mon.bkc) ∧
        (v'.getLsbD 5 = true → exec (.stda rd rs1 false 0x38 rs2) s = .refused .physicalBreakpoint) ∧
        (v'.getLsbD 5 = false → writes (.stda rd rs1 false 0x38 rs2) { s.mon with bkc := v'.extractLsb' 0 7 })) ∧
      (a ∉ [0x000, 0x100, 0x200] →
        exec (.ldda rd rs1 false 0x38 rs2) s = .refused .asiRegister ∧
        exec (.stda rd rs1 false 0x38 rs2) s = .refused .asiRegister)) ∧
    (asi.toNat ∉ [0x02, 0x03, 0x04, 0x05, 0x06, 0x08, 0x09, 0x0A, 0x0B, 0x0C, 0x0D, 0x0E, 0x0F, 0x30, 0x31, 0x32, 0x36,
        0x37, 0x38, 0x39, 0x40, 0x48, 0x49, 0x4A, 0x4B, 0x4C] → asi.extractLsb' 4 4 ≠ 2 → a % 8 = 0 →
      rd.getLsbD 0 = false →
      ∀ i ∈ [Instr.lda rd rs1 false asi rs2, .lduba rd rs1 false asi rs2, .lduha rd rs1 false asi rs2,
          .ldda rd rs1 false asi rs2, .ldsba rd rs1 false asi rs2, .ldsha rd rs1 false asi rs2, .sta rd rs1 false asi rs2,
          .stba rd rs1 false asi rs2, .stha rd rs1 false asi rs2, .stda rd rs1 false asi rs2,
          .ldstuba rd rs1 false asi rs2, .swapa rd rs1 false asi rs2],
        Traps i 0x09 s)

/-! ## Floating point -/

/-- R550, R442, R371, R620 to R622: what every floating-point instruction checks first. With EF = 0 it traps fp_disabled.
A load or store then needs its alignment. In fp_exception_pending mode the pending exception traps and the FPU enters
fp_exception mode; there an operate, a branch or a load is a sequence error, with ftt 4. -/
def Obligations.FloatGate : Prop :=
  ∀ (rd rs1 rs2 : Reg) (opf : BitVec 9) (a : Bool) (disp22 : BitVec 22) (o : Opnd2) (s : State),
    let operates := arithmeticFpops rd rs1 rs2 ++ unimplementedFpops rd rs1 rs2 opf ++ floatBranches a disp22
    let ea := (readReg rs1 s + opnd2 o s).toNat
    let words : List Instr := [.ldf rd rs1 o, .ldfsr rd rs1 o, .stf rd rs1 o, .stfsr rd rs1 o]
    let dwords : List Instr := [.lddf rd rs1 o, .stdf rd rs1 o]
    (s.psr.ef = false →
      (∀ i ∈ operates ++ words ++ dwords, Traps i 0x04 s) ∧ (s.psr.s = true → Traps (.stdfq rd rs1 o) 0x04 s)) ∧
    (s.psr.ef = true →
      (ea % 4 ≠ 0 → ∀ i ∈ words, Traps i 0x07 s) ∧ (ea % 8 ≠ 0 → ∀ i ∈ dwords, Traps i 0x07 s) ∧
      (ea % 8 ≠ 0 → s.psr.s = true → Traps (.stdfq rd rs1 o) 0x07 s) ∧
      (s.psr.et = true → s.fq ≠ [] →
        let delivered (i : Instr) := ∃ t, exec i s = .next t ∧ t.trapped = true ∧ t.tbr.tt = 0x08 ∧
          t.fpMode = .exception ∧ t.fq = s.fq ∧ t.fsr = s.fsr ∧ t.f = s.f ∧ MemKept s t ∧ readReg 17 t = s.pc
        let sequence (i : Instr) := ∃ t, exec i s = .next t ∧ t.trapped = true ∧ t.tbr.tt = 0x08 ∧
          t.fpMode = .exception ∧ t.fq = s.fq ∧ t.fsr = { s.fsr with ftt := 4 } ∧ t.f = s.f ∧ MemKept s t ∧
          readReg 17 t = s.pc
        (s.fpMode = .exceptionPending →
          (∀ i ∈ operates, delivered i) ∧ (ea % 4 = 0 → ∀ i ∈ words, delivered i) ∧
          (ea % 8 = 0 → ∀ i ∈ dwords, delivered i) ∧ (ea % 8 = 0 → s.psr.s = true → delivered (.stdfq rd rs1 o))) ∧
        (s.fpMode = .exception →
          (∀ i ∈ operates, sequence i) ∧ (ea % 4 = 0 → ∀ i ∈ [Instr.ldf rd rs1 o, .ldfsr rd rs1 o], sequence i) ∧
          (ea % 8 = 0 → sequence (.lddf rd rs1 o)))))

/-- R553: an operate whose exceptions are all masked by TEM writes its register, cexc, aexc and ftt; one with an enabled
exception writes no register and no aexc, waits in the queue, and cexc names the first of the enabled exceptions. The
double an odd register names is that of the pair that holds it: R770 says ftt 6 is never produced, which leaves the other of
the two effects U5 allows (R557, log 2). Rests on choices: a trapping operate sets one bit of
cexc (log 41), the NaNs and saturated integers of floatToInt and of invalid operations (D4, D38, log 42), ftt cleared by an
operate that does not trap (D5), the queue that holds the operate at once (D39). -/
def Obligations.FloatResults : Prop :=
  ∀ (rd rs1 rs2 : Reg) (s : State), FpReady s →
    let rm := s.fsr.rd
    let m := s.fsr.tem.getLsbD 2
    let x := (readF rs1 s).toNat
    let y := (readF rs2 s).toNat
    let X := (readD rs1 s).toNat
    let Y := (readD rs2 s).toNat
    let masked (exc : BitVec 5) (t : State) :=
      t.fsr = { s.fsr with cexc := exc, aexc := s.fsr.aexc ||| exc, ftt := 0 }
    let waits (i : Instr) (exc : BitVec 5) := Completes i s fun t =>
      Advanced s t ∧ Queued i s t ∧ FirstOf (exc &&& s.fsr.tem) t.fsr.cexc ∧
      t.fsr = { s.fsr with cexc := t.fsr.cexc, ftt := 1 } ∧ Frame { fsr := true, queue := true } s t
    (∀ q ∈ ([(.fadds rd rs1 rs2, floatAdd single rm m x y), (.fsubs rd rs1 rs2, floatSub single rm m x y),
        (.fmuls rd rs1 rs2, floatMul single single rm m x y), (.fdivs rd rs1 rs2, floatDiv single rm m x y),
        (.fsqrts rd rs2, floatSqrt single rm m y), (.fitos rd rs2, floatOfInt single rm m (readF rs2 s)),
        (.fstoi rd rs2, floatToInt single y), (.fdtoi rd rs2, floatToInt double Y),
        (.fdtos rd rs2, floatConvert double single rm m Y)] : List (Instr × FloatRes)),
      (q.2.exc &&& s.fsr.tem ≠ 0 → waits q.1 q.2.exc) ∧
      (q.2.exc &&& s.fsr.tem = 0 → Completes q.1 s fun t => Advanced s t ∧ masked q.2.exc t ∧
        readF rd t = BitVec.ofNat 32 q.2.bits ∧ Frame { fregs := [rd], fsr := true } s t)) ∧
    (∀ q ∈ ([(.faddd rd rs1 rs2, floatAdd double rm m X Y),
        (.fsubd rd rs1 rs2, floatSub double rm m X Y),
        (.fmuld rd rs1 rs2, floatMul double double rm m X Y),
        (.fsmuld rd rs1 rs2, floatMul single double rm m x y),
        (.fdivd rd rs1 rs2, floatDiv double rm m X Y),
        (.fsqrtd rd rs2, floatSqrt double rm m Y),
        (.fitod rd rs2, floatOfInt double rm m (readF rs2 s)),
        (.fstod rd rs2, floatConvert single double rm m y)] : List (Instr × FloatRes)),
      (q.2.exc &&& s.fsr.tem ≠ 0 → waits q.1 q.2.exc) ∧
      (q.2.exc &&& s.fsr.tem = 0 → Completes q.1 s fun t => Advanced s t ∧ masked q.2.exc t ∧
        readD rd t = BitVec.ofNat 64 q.2.bits ∧ Frame { fregs := [pairEven rd, pairOdd rd], fsr := true } s t))

/-- R552, R554: sums, differences, products, quotients, square roots and conversions of finite operands are the exact
number rounded once, in every rounding direction, with what an overflow raises and delivers; exact zeros have the sign R552
gives. Operations on infinities, and y / 0. R556: 0 / 0, inf - inf, 0 x inf, inf / inf and the root of a negative number are
the default NaN with nv (its pattern is D38, log 42). R572: the double product of two singles is exact. R585: the
conversions to an integer round toward zero and saturate. -/
def Obligations.FloatRounding : Prop :=
  ∀ (F G : Format) (rm : BitVec 2) (ufm : Bool) (x y : Nat), F = single ∨ F = double →
    G = F ∨ (F = single ∧ G = double) →
    let a := valueOf (unpack F x)
    let b := valueOf (unpack F y)
    let sx := signOf F x
    let sy := signOf F y
    let zeroSum (s t : Bool) := signedResult F (if s = t then s else rm == 3) 0
    let inf (H : Format) (neg : Bool) := signedResult H neg (infinityBits H)
    (Finite F x → Finite F y →
      (a + b ≠ 0 → RoundedTo F rm ufm ((a : ℝ) + b) (floatAdd F rm ufm x y)) ∧
      (a + b = 0 → floatAdd F rm ufm x y = zeroSum sx sy) ∧
      (a - b ≠ 0 → RoundedTo F rm ufm ((a : ℝ) - b) (floatSub F rm ufm x y)) ∧
      (a - b = 0 → floatSub F rm ufm x y = zeroSum sx (!sy)) ∧
      (a * b ≠ 0 → RoundedTo F rm ufm ((a : ℝ) * b) (floatMul F F rm ufm x y) ∧
        RoundedTo F rm ufm ((a : ℝ) / b) (floatDiv F rm ufm x y)) ∧
      (a * b = 0 → floatMul F G rm ufm x y = signedResult G (sx != sy) 0) ∧
      (a = 0 → b ≠ 0 → floatDiv F rm ufm x y = signedResult F (sx != sy) 0) ∧
      (a ≠ 0 → b = 0 → floatDiv F rm ufm x y = signedResult F (sx != sy) (infinityBits F) 2) ∧
      (a = 0 → b = 0 → floatDiv F rm ufm x y = invalidResult F) ∧
      (F = single → a * b ≠ 0 → (floatMul single double rm ufm x y).exc = 0 ∧
        Finite double (floatMul single double rm ufm x y).bits ∧
        valueOf (unpack double (floatMul single double rm ufm x y).bits) = a * b)) ∧
    (Finite F x →
      (0 < a → RoundedTo F rm ufm (Real.sqrt a) (floatSqrt F rm ufm x) ∧ (floatSqrt F rm ufm x).exc.toNat ≤ 1) ∧
      (a = 0 → floatSqrt F rm ufm x = { bits := x, exc := 0 }) ∧ (a < 0 → floatSqrt F rm ufm x = invalidResult F) ∧
      (∀ H ∈ [single, double],
        (a ≠ 0 → RoundedTo H rm ufm a (floatConvert F H rm ufm x)) ∧
        (a = 0 → floatConvert F H rm ufm x = signedResult H sx 0)) ∧
      TruncatedTo a (floatToInt F x)) ∧
    (Infinite F x →
      floatSqrt F rm ufm x = (if sx then invalidResult F else inf F false) ∧
      (∀ H ∈ [single, double], floatConvert F H rm ufm x = inf H sx) ∧
      floatToInt F x = { bits := if sx then 0x80000000 else 0x7FFFFFFF, exc := 16 } ∧
      (Finite F y →
        floatAdd F rm ufm x y = inf F sx ∧ floatSub F rm ufm x y = inf F sx ∧ floatDiv F rm ufm x y = inf F (sx != sy) ∧
        floatMul F G rm ufm x y = (if b = 0 then invalidResult G else inf G (sx != sy)) ∧
        floatAdd F rm ufm y x = inf F sx ∧ floatSub F rm ufm y x = inf F (!sx) ∧
        floatDiv F rm ufm y x = signedResult F (sy != sx) 0 ∧
        floatMul F G rm ufm y x = (if b = 0 then invalidResult G else inf G (sy != sx))) ∧
      (Infinite F y →
        floatAdd F rm ufm x y = (if sx = sy then inf F sx else invalidResult F) ∧
        floatSub F rm ufm x y = (if sx = sy then invalidResult F else inf F sx) ∧
        floatMul F G rm ufm x y = inf G (sx != sy) ∧ floatDiv F rm ufm x y = invalidResult F)) ∧
    floatOfInt F rm ufm 0 = signedResult F false 0 ∧
    ∀ w : Word, w ≠ 0 → RoundedTo F rm ufm (w.toInt : ℝ) (floatOfInt F rm ufm w)

/-- R555: the NaN result of an operate. An operand that is a NaN gives the result, of two the second before the first, its
quiet bit set and its sign kept; nv is raised when an operand is signalling. In FsTOd, and in FsMULd, the 23 fraction bits
of a single become the top ones of the 52; in FdTOs the top 23 of the 52 are kept. R585: the conversions to an integer
saturate by the sign of the NaN and raise nv (D4, log 42). -/
def Obligations.FloatNans : Prop :=
  ∀ (F : Format) (rm : BitVec 2) (ufm : Bool) (x y : Nat), F = single ∨ F = double →
    x < 2 ^ (F.p + F.w) → y < 2 ^ (F.p + F.w) →
    let q := 2 ^ (F.p - 2)
    let nan (v : Nat) := v / 2 ^ (F.p - 1) % 2 ^ F.w = 2 ^ F.w - 1 ∧ v % 2 ^ (F.p - 1) ≠ 0
    let loud (v : Nat) := nan v ∧ v % 2 ^ (F.p - 1) < q
    let one (r : FloatRes) (bits : Nat) := r.bits = bits ∧ r.exc.toNat = if loud x then 16 else 0
    let widened (v : Nat) := v / 2 ^ 31 * 2 ^ 63 + 0x7FF * 2 ^ 52 + v % 2 ^ 23 * 2 ^ 29 ||| 2 ^ 51
    let narrowed (v : Nat) := v / 2 ^ 63 * 2 ^ 31 + 0xFF * 2 ^ 23 + v % 2 ^ 52 / 2 ^ 29 ||| 2 ^ 22
    (∀ f ∈ [(floatAdd F, (· ||| q)), (floatSub F, (· ||| q)), (floatMul F F, (· ||| q)), (floatDiv F, (· ||| q))] ++
        (if F = single then [(floatMul single double, widened)] else []),
      let r := f.1 rm ufm x y
      (nan y → r.bits = f.2 y) ∧ (nan x → ¬ nan y → r.bits = f.2 x) ∧
      (nan x ∨ nan y → r.exc.toNat = if loud x ∨ loud y then 16 else 0)) ∧
    (nan x →
      one (floatSqrt F rm ufm x) (x ||| q) ∧
      (F = single → one (floatConvert single double rm ufm x) (widened x)) ∧
      (F = double → one (floatConvert double single rm ufm x) (narrowed x)) ∧
      floatToInt F x = { bits := if signOf F x then 0x80000000 else 0x7FFFFFFF, exc := 16 })

/-- R560 to R562, R583: FMOVs, FNEGs and FABSs move the pattern and touch the sign bit alone, also of a NaN; FiTOd is
exact. None of them raises an exception. FiTOd with an odd `rd` writes the pair that holds it (R557, R770, U5, log 2); that
ftt is cleared is decision D5. -/
def Obligations.FloatMovesAndFitod : Prop :=
  ∀ (rd rs2 : Reg) (s : State), FpReady s →
    (∀ q ∈ ([(.fmovs rd rs2, readF rs2 s), (.fnegs rd rs2, readF rs2 s ^^^ 0x80000000),
        (.fabss rd rs2, readF rs2 s &&& 0x7FFFFFFF)] : List (Instr × Word)),
      Completes q.1 s fun t => Advanced s t ∧ readF rd t = q.2 ∧ t.fsr = { s.fsr with cexc := 0, ftt := 0 } ∧
        Frame { fregs := [rd], fsr := true } s t) ∧
    Completes (.fitod rd rs2) s fun t => Advanced s t ∧
      valueOf (unpack double (readD rd t).toNat) = ((readF rs2 s).toInt : ℚ) ∧
      t.fsr = { s.fsr with cexc := 0, ftt := 0 } ∧ Frame { fregs := [pairEven rd, pairOdd rd], fsr := true } s t

/-- R592 to R595: the compares set fcc to 0 (equal), 1 (less), 2 (greater) or 3 (unordered), and raise nv on a signalling
NaN, FCMPE on any NaN. FCMPd and FCMPEd with an odd register compare the pair that holds it (R557, R770, U5, log 2); that a
trapping compare waits in the queue at once is decision D39, and that ftt is cleared D5. -/
def Obligations.FloatCompares : Prop :=
  ∀ (rs1 rs2 : Reg) (s : State), FpReady s →
    ∀ q ∈ ([(.fcmps rs1 rs2, false, single, (readF rs1 s).toNat, (readF rs2 s).toNat),
        (.fcmpd rs1 rs2, false, double, (readD rs1 s).toNat, (readD rs2 s).toNat),
        (.fcmpes rs1 rs2, true, single, (readF rs1 s).toNat, (readF rs2 s).toNat),
        (.fcmped rs1 rs2, true, double, (readD rs1 s).toNat, (readD rs2 s).toNat)] :
          List (Instr × Bool × Format × Nat × Nat)),
      let i := q.1
      let F := q.2.2.1
      let x := unpack F q.2.2.2.1
      let y := unpack F q.2.2.2.2
      let a := valueOf x
      let b := valueOf y
      let unordered := ∃ sign frac, x = .nan sign frac ∨ y = .nan sign frac
      ∀ (fcc : BitVec 2) (exc : BitVec 5),
        (unordered → fcc = 3 ∧ exc = if q.2.1 || isSignalling F x || isSignalling F y then 0x10 else 0) →
        (¬ unordered → exc = 0 ∧ (a = b → fcc = 0) ∧ (a < b → fcc = 1) ∧ (b < a → fcc = 2)) →
        (exc &&& s.fsr.tem = 0 → Completes i s fun t => Advanced s t ∧
          t.fsr = { s.fsr with fcc := fcc, cexc := exc, aexc := s.fsr.aexc ||| exc, ftt := 0 } ∧
          Frame { fsr := true } s t) ∧
        (exc &&& s.fsr.tem ≠ 0 → Completes i s fun t => Advanced s t ∧ Queued i s t ∧
          t.fsr = { s.fsr with cexc := exc, ftt := 1 } ∧ Frame { fsr := true, queue := true } s t)

/-- R612, R613: an operate the hardware does not implement waits in the queue with ftt 3. -/
def Obligations.UnimplementedFpops : Prop :=
  ∀ (rd rs1 rs2 : Reg) (opf : BitVec 9) (s : State), FpReady s →
    ∀ i ∈ unimplementedFpops rd rs1 rs2 opf, Completes i s fun t =>
      Advanced s t ∧ Queued i s t ∧ t.fsr = { s.fsr with ftt := 3 } ∧ Frame { fsr := true, queue := true } s t

/-- R395 to R397: the floating-point loads. A little-endian double is reversed as a whole; LDFSR keeps ver, ftt and
qne. LDDF with an odd `rd` loads the pair that holds it (R396, R770, U5, log 2). -/
def Obligations.FloatLoads : Prop :=
  ∀ (rd rs1 : Reg) (o : Opnd2) (s u : State) (p : Target), FpReady s →
    let a := readReg rs1 s + opnd2 o s
    ReachesIn (dataAsi s) .load a s p u →
    let b (k : Nat) := byteAt u p.pa k
    let big := s.psr.de = p.rbo
    let w := if big then b 0 ++ b 1 ++ b 2 ++ b 3 else b 3 ++ b 2 ++ b 1 ++ b 0
    (a.toNat % 4 = 0 →
      (Completes (.ldf rd rs1 o) s fun t => Advanced s t ∧ readF rd t = w ∧ Frame { fregs := [rd] } u t) ∧
      (Completes (.ldfsr rd rs1 o) s fun t => Advanced s t ∧
        t.fsr = { rd := w.extractLsb' 30 2, tem := w.extractLsb' 23 5, ns := w.getLsbD 22, ftt := s.fsr.ftt,
                  fcc := w.extractLsb' 10 2, aexc := w.extractLsb' 5 5, cexc := w.extractLsb' 0 5 } ∧
        Frame { fsr := true } u t)) ∧
    (a.toNat % 8 = 0 → Completes (.lddf rd rs1 o) s fun t => Advanced s t ∧
      readD rd t = (if big then b 0 ++ b 1 ++ b 2 ++ b 3 ++ b 4 ++ b 5 ++ b 6 ++ b 7
        else b 7 ++ b 6 ++ b 5 ++ b 4 ++ b 3 ++ b 2 ++ b 1 ++ b 0) ∧
      Frame { fregs := [pairEven rd, pairOdd rd] } u t)

/-- R400 to R402: the floating-point stores, which also run in fp_exception mode. STFSR stores the FSR with qne and then
clears ftt. A fetch may still see the words they change (R205, D12, log 4). STDF with an odd `rd` stores the pair that holds it (R396, R770, U5, log 2). -/
def Obligations.FloatStores : Prop :=
  ∀ (rd rs1 : Reg) (o : Opnd2) (s u : State) (p : Target), s.psr.ef = true → s.fpMode ≠ .exceptionPending →
    Memory.wf s.mem = true →
    let a := readReg rs1 s + opnd2 o s
    ReachesIn (dataAsi s) .store a s p u →
    let order (bs : List Byte) := if s.psr.de = p.rbo then bs else bs.reverse
    let stored (t : State) (bs : List Byte) := Advanced s t ∧ Memory.readBytes t.mem p.pa.toNat bs.length = order bs
    (a.toNat % 4 = 0 →
      (Completes (.stf rd rs1 o) s fun t => stored t (wordBytes (readF rd s)) ∧
        Frame { bytes := byteRange p.pa.toNat 4 } u t) ∧
      (∀ w : Word, w.extractLsb' 30 2 = s.fsr.rd → w.extractLsb' 28 2 = 0 → w.extractLsb' 23 5 = s.fsr.tem →
        w.getLsbD 22 = s.fsr.ns → w.extractLsb' 17 5 = 0 → w.extractLsb' 14 3 = s.fsr.ftt →
        (w.getLsbD 13 = true ↔ s.fq ≠ []) → w.getLsbD 12 = false → w.extractLsb' 10 2 = s.fsr.fcc →
        w.extractLsb' 5 5 = s.fsr.aexc → w.extractLsb' 0 5 = s.fsr.cexc →
        Completes (.stfsr rd rs1 o) s fun t => stored t (wordBytes w) ∧ t.fsr = { s.fsr with ftt := 0 } ∧
          Frame { fsr := true, bytes := byteRange p.pa.toNat 4 } u t)) ∧
    (a.toNat % 8 = 0 → Completes (.stdf rd rs1 o) s fun t =>
      stored t (wordBytes (readF (pairEven rd) s) ++ wordBytes (readF (pairOdd rd) s)) ∧
      Frame { bytes := byteRange p.pa.toNat 8 } u t)

/-- R403, R623: STDFQ stores the address and the word of the front entry of the queue and takes the entry off; with the
last entry gone the FPU executes again. On an empty queue it is a sequence error. -/
def Obligations.StdfqDequeues : Prop :=
  ∀ (rd rs1 : Reg) (o : Opnd2) (s : State), s.psr.s = true → s.psr.ef = true → s.fpMode ≠ .exceptionPending →
    let a := readReg rs1 s + opnd2 o s
    a.toNat % 8 = 0 →
    (∀ (u : State) (p : Target) (addr w : Word) (rest : List (Word × Word)), s.fq = (addr, w) :: rest →
      Memory.wf s.mem = true → ReachesIn (dataAsi s) .store a s p u →
      let order (bs : List Byte) := if s.psr.de = p.rbo then bs else bs.reverse
      Completes (.stdfq rd rs1 o) s fun t => Advanced s t ∧
        Memory.readBytes t.mem p.pa.toNat 8 = order (wordBytes addr) ++ order (wordBytes w) ∧ t.fq = rest ∧
        t.fpMode = (if rest = [] then .execute else s.fpMode) ∧
        Frame { queue := true, bytes := byteRange p.pa.toNat 8 } u t) ∧
    (s.fq = [] → s.psr.et = true → ∃ t, exec (.stdfq rd rs1 o) s = .next t ∧ t.trapped = true ∧ t.tbr.tt = 0x08 ∧
      t.fsr = { s.fsr with ftt := 4 } ∧ t.fpMode = .execute ∧ MemKept s t)
end

