-- ==== Sys2Proof/Laws/State.lean ====
section
/-! SUPPORT. What each state update leaves in each field: one lemma per field per update, so that no proof unfolds a
record update. -/

namespace Sys2Proof.Machine

/-! ## drawn -/

@[simp] theorem drawn_globals (s : State) : (drawn s).globals = s.globals := rfl
@[simp] theorem drawn_windows (s : State) : (drawn s).windows = s.windows := rfl
@[simp] theorem drawn_pc (s : State) : (drawn s).pc = s.pc := rfl
@[simp] theorem drawn_npc (s : State) : (drawn s).npc = s.npc := rfl
@[simp] theorem drawn_psr (s : State) : (drawn s).psr = s.psr := rfl
@[simp] theorem drawn_wim (s : State) : (drawn s).wim = s.wim := rfl
@[simp] theorem drawn_tbr (s : State) : (drawn s).tbr = s.tbr := rfl
@[simp] theorem drawn_y (s : State) : (drawn s).y = s.y := rfl
@[simp] theorem drawn_f (s : State) : (drawn s).f = s.f := rfl
@[simp] theorem drawn_fsr (s : State) : (drawn s).fsr = s.fsr := rfl
@[simp] theorem drawn_fq (s : State) : (drawn s).fq = s.fq := rfl
@[simp] theorem drawn_fpMode (s : State) : (drawn s).fpMode = s.fpMode := rfl
@[simp] theorem drawn_mmu (s : State) : (drawn s).mmu = s.mmu := rfl
@[simp] theorem drawn_dtags (s : State) : (drawn s).dtags = s.dtags := rfl
@[simp] theorem drawn_icacheCleared (s : State) : (drawn s).icacheCleared = s.icacheCleared := rfl
@[simp] theorem drawn_mon (s : State) : (drawn s).mon = s.mon := rfl
@[simp] theorem drawn_mem (s : State) : (drawn s).mem = s.mem := rfl
@[simp] theorem drawn_stale (s : State) : (drawn s).stale = s.stale := rfl
@[simp] theorem drawn_irl (s : State) : (drawn s).irl = s.irl := rfl
@[simp] theorem drawn_errorMode (s : State) : (drawn s).errorMode = s.errorMode := rfl
@[simp] theorem drawn_condTaken (s : State) : (drawn s).condTaken = s.condTaken := rfl
@[simp] theorem drawn_trapped (s : State) : (drawn s).trapped = s.trapped := rfl
@[simp] theorem drawn_wroteA (s : State) : (drawn s).wroteA = s.wroteA := rfl
@[simp] theorem drawn_wroteB (s : State) : (drawn s).wroteB = s.wroteB := rfl
@[simp] theorem drawn_fresh (s : State) : (drawn s).fresh = s.fresh + 1 := rfl
/-! ## Registers -/

@[simp] theorem writeRegIn_pc (w : BitVec 3) (r : Reg) (v : Word) (s : State) : (writeRegIn w r v s).pc = s.pc := by
  unfold writeRegIn; split_ifs <;> rfl
@[simp] theorem writeRegIn_npc (w : BitVec 3) (r : Reg) (v : Word) (s : State) : (writeRegIn w r v s).npc = s.npc := by
  unfold writeRegIn; split_ifs <;> rfl
@[simp] theorem writeRegIn_psr (w : BitVec 3) (r : Reg) (v : Word) (s : State) : (writeRegIn w r v s).psr = s.psr := by
  unfold writeRegIn; split_ifs <;> rfl
@[simp] theorem writeRegIn_wim (w : BitVec 3) (r : Reg) (v : Word) (s : State) : (writeRegIn w r v s).wim = s.wim := by
  unfold writeRegIn; split_ifs <;> rfl
@[simp] theorem writeRegIn_tbr (w : BitVec 3) (r : Reg) (v : Word) (s : State) : (writeRegIn w r v s).tbr = s.tbr := by
  unfold writeRegIn; split_ifs <;> rfl
@[simp] theorem writeRegIn_y (w : BitVec 3) (r : Reg) (v : Word) (s : State) : (writeRegIn w r v s).y = s.y := by
  unfold writeRegIn; split_ifs <;> rfl
@[simp] theorem writeRegIn_f (w : BitVec 3) (r : Reg) (v : Word) (s : State) : (writeRegIn w r v s).f = s.f := by
  unfold writeRegIn; split_ifs <;> rfl
@[simp] theorem writeRegIn_fsr (w : BitVec 3) (r : Reg) (v : Word) (s : State) : (writeRegIn w r v s).fsr = s.fsr := by
  unfold writeRegIn; split_ifs <;> rfl
@[simp] theorem writeRegIn_fq (w : BitVec 3) (r : Reg) (v : Word) (s : State) : (writeRegIn w r v s).fq = s.fq := by
  unfold writeRegIn; split_ifs <;> rfl
@[simp] theorem writeRegIn_fpMode (w : BitVec 3) (r : Reg) (v : Word) (s : State) : (writeRegIn w r v s).fpMode = s.fpMode := by
  unfold writeRegIn; split_ifs <;> rfl
@[simp] theorem writeRegIn_mmu (w : BitVec 3) (r : Reg) (v : Word) (s : State) : (writeRegIn w r v s).mmu = s.mmu := by
  unfold writeRegIn; split_ifs <;> rfl
@[simp] theorem writeRegIn_dtags (w : BitVec 3) (r : Reg) (v : Word) (s : State) : (writeRegIn w r v s).dtags = s.dtags := by
  unfold writeRegIn; split_ifs <;> rfl
@[simp] theorem writeRegIn_icacheCleared (w : BitVec 3) (r : Reg) (v : Word) (s : State) : (writeRegIn w r v s).icacheCleared = s.icacheCleared := by
  unfold writeRegIn; split_ifs <;> rfl
@[simp] theorem writeRegIn_mon (w : BitVec 3) (r : Reg) (v : Word) (s : State) : (writeRegIn w r v s).mon = s.mon := by
  unfold writeRegIn; split_ifs <;> rfl
@[simp] theorem writeRegIn_mem (w : BitVec 3) (r : Reg) (v : Word) (s : State) : (writeRegIn w r v s).mem = s.mem := by
  unfold writeRegIn; split_ifs <;> rfl
@[simp] theorem writeRegIn_stale (w : BitVec 3) (r : Reg) (v : Word) (s : State) : (writeRegIn w r v s).stale = s.stale := by
  unfold writeRegIn; split_ifs <;> rfl
@[simp] theorem writeRegIn_irl (w : BitVec 3) (r : Reg) (v : Word) (s : State) : (writeRegIn w r v s).irl = s.irl := by
  unfold writeRegIn; split_ifs <;> rfl
@[simp] theorem writeRegIn_errorMode (w : BitVec 3) (r : Reg) (v : Word) (s : State) : (writeRegIn w r v s).errorMode = s.errorMode := by
  unfold writeRegIn; split_ifs <;> rfl
@[simp] theorem writeRegIn_fresh (w : BitVec 3) (r : Reg) (v : Word) (s : State) : (writeRegIn w r v s).fresh = s.fresh := by
  unfold writeRegIn; split_ifs <;> rfl
@[simp] theorem writeRegIn_condTaken (w : BitVec 3) (r : Reg) (v : Word) (s : State) : (writeRegIn w r v s).condTaken = s.condTaken := by
  unfold writeRegIn; split_ifs <;> rfl
@[simp] theorem writeRegIn_trapped (w : BitVec 3) (r : Reg) (v : Word) (s : State) : (writeRegIn w r v s).trapped = s.trapped := by
  unfold writeRegIn; split_ifs <;> rfl
@[simp] theorem writeRegIn_wroteA (w : BitVec 3) (r : Reg) (v : Word) (s : State) : (writeRegIn w r v s).wroteA = s.wroteA := by
  unfold writeRegIn; split_ifs <;> rfl
@[simp] theorem writeRegIn_wroteB (w : BitVec 3) (r : Reg) (v : Word) (s : State) : (writeRegIn w r v s).wroteB = s.wroteB := by
  unfold writeRegIn; split_ifs <;> rfl
@[simp] theorem writeReg_pc (r : Reg) (v : Word) (s : State) : (writeReg r v s).pc = s.pc := by
  simp [writeReg]
@[simp] theorem writeReg_npc (r : Reg) (v : Word) (s : State) : (writeReg r v s).npc = s.npc := by
  simp [writeReg]
@[simp] theorem writeReg_psr (r : Reg) (v : Word) (s : State) : (writeReg r v s).psr = s.psr := by
  simp [writeReg]
@[simp] theorem writeReg_wim (r : Reg) (v : Word) (s : State) : (writeReg r v s).wim = s.wim := by
  simp [writeReg]
@[simp] theorem writeReg_tbr (r : Reg) (v : Word) (s : State) : (writeReg r v s).tbr = s.tbr := by
  simp [writeReg]
@[simp] theorem writeReg_y (r : Reg) (v : Word) (s : State) : (writeReg r v s).y = s.y := by
  simp [writeReg]
@[simp] theorem writeReg_f (r : Reg) (v : Word) (s : State) : (writeReg r v s).f = s.f := by
  simp [writeReg]
@[simp] theorem writeReg_fsr (r : Reg) (v : Word) (s : State) : (writeReg r v s).fsr = s.fsr := by
  simp [writeReg]
@[simp] theorem writeReg_fq (r : Reg) (v : Word) (s : State) : (writeReg r v s).fq = s.fq := by
  simp [writeReg]
@[simp] theorem writeReg_fpMode (r : Reg) (v : Word) (s : State) : (writeReg r v s).fpMode = s.fpMode := by
  simp [writeReg]
@[simp] theorem writeReg_mmu (r : Reg) (v : Word) (s : State) : (writeReg r v s).mmu = s.mmu := by
  simp [writeReg]
@[simp] theorem writeReg_dtags (r : Reg) (v : Word) (s : State) : (writeReg r v s).dtags = s.dtags := by
  simp [writeReg]
@[simp] theorem writeReg_icacheCleared (r : Reg) (v : Word) (s : State) : (writeReg r v s).icacheCleared = s.icacheCleared := by
  simp [writeReg]
@[simp] theorem writeReg_mon (r : Reg) (v : Word) (s : State) : (writeReg r v s).mon = s.mon := by
  simp [writeReg]
@[simp] theorem writeReg_mem (r : Reg) (v : Word) (s : State) : (writeReg r v s).mem = s.mem := by
  simp [writeReg]
@[simp] theorem writeReg_stale (r : Reg) (v : Word) (s : State) : (writeReg r v s).stale = s.stale := by
  simp [writeReg]
@[simp] theorem writeReg_irl (r : Reg) (v : Word) (s : State) : (writeReg r v s).irl = s.irl := by
  simp [writeReg]
@[simp] theorem writeReg_errorMode (r : Reg) (v : Word) (s : State) : (writeReg r v s).errorMode = s.errorMode := by
  simp [writeReg]
@[simp] theorem writeReg_fresh (r : Reg) (v : Word) (s : State) : (writeReg r v s).fresh = s.fresh := by
  simp [writeReg]
@[simp] theorem writeReg_condTaken (r : Reg) (v : Word) (s : State) : (writeReg r v s).condTaken = s.condTaken := by
  simp [writeReg]
@[simp] theorem writeReg_trapped (r : Reg) (v : Word) (s : State) : (writeReg r v s).trapped = s.trapped := by
  simp [writeReg]
@[simp] theorem writeReg_wroteA (r : Reg) (v : Word) (s : State) : (writeReg r v s).wroteA = s.wroteA := by
  simp [writeReg]
@[simp] theorem writeReg_wroteB (r : Reg) (v : Word) (s : State) : (writeReg r v s).wroteB = s.wroteB := by
  simp [writeReg]
@[simp] theorem writeF_globals (r : Reg) (v : Word) (s : State) : (writeF r v s).globals = s.globals := rfl
@[simp] theorem writeF_windows (r : Reg) (v : Word) (s : State) : (writeF r v s).windows = s.windows := rfl
@[simp] theorem writeF_pc (r : Reg) (v : Word) (s : State) : (writeF r v s).pc = s.pc := rfl
@[simp] theorem writeF_npc (r : Reg) (v : Word) (s : State) : (writeF r v s).npc = s.npc := rfl
@[simp] theorem writeF_psr (r : Reg) (v : Word) (s : State) : (writeF r v s).psr = s.psr := rfl
@[simp] theorem writeF_wim (r : Reg) (v : Word) (s : State) : (writeF r v s).wim = s.wim := rfl
@[simp] theorem writeF_tbr (r : Reg) (v : Word) (s : State) : (writeF r v s).tbr = s.tbr := rfl
@[simp] theorem writeF_y (r : Reg) (v : Word) (s : State) : (writeF r v s).y = s.y := rfl
@[simp] theorem writeF_fsr (r : Reg) (v : Word) (s : State) : (writeF r v s).fsr = s.fsr := rfl
@[simp] theorem writeF_fq (r : Reg) (v : Word) (s : State) : (writeF r v s).fq = s.fq := rfl
@[simp] theorem writeF_fpMode (r : Reg) (v : Word) (s : State) : (writeF r v s).fpMode = s.fpMode := rfl
@[simp] theorem writeF_mmu (r : Reg) (v : Word) (s : State) : (writeF r v s).mmu = s.mmu := rfl
@[simp] theorem writeF_dtags (r : Reg) (v : Word) (s : State) : (writeF r v s).dtags = s.dtags := rfl
@[simp] theorem writeF_icacheCleared (r : Reg) (v : Word) (s : State) : (writeF r v s).icacheCleared = s.icacheCleared := rfl
@[simp] theorem writeF_mon (r : Reg) (v : Word) (s : State) : (writeF r v s).mon = s.mon := rfl
@[simp] theorem writeF_mem (r : Reg) (v : Word) (s : State) : (writeF r v s).mem = s.mem := rfl
@[simp] theorem writeF_stale (r : Reg) (v : Word) (s : State) : (writeF r v s).stale = s.stale := rfl
@[simp] theorem writeF_irl (r : Reg) (v : Word) (s : State) : (writeF r v s).irl = s.irl := rfl
@[simp] theorem writeF_errorMode (r : Reg) (v : Word) (s : State) : (writeF r v s).errorMode = s.errorMode := rfl
@[simp] theorem writeF_fresh (r : Reg) (v : Word) (s : State) : (writeF r v s).fresh = s.fresh := rfl
@[simp] theorem writeF_condTaken (r : Reg) (v : Word) (s : State) : (writeF r v s).condTaken = s.condTaken := rfl
@[simp] theorem writeF_trapped (r : Reg) (v : Word) (s : State) : (writeF r v s).trapped = s.trapped := rfl
@[simp] theorem writeF_wroteA (r : Reg) (v : Word) (s : State) : (writeF r v s).wroteA = s.wroteA := rfl
@[simp] theorem writeF_wroteB (r : Reg) (v : Word) (s : State) : (writeF r v s).wroteB = s.wroteB := rfl
@[simp] theorem writeF_f (r : Reg) (v : Word) (s : State) : (writeF r v s).f = s.f.set r.toNat v := rfl
@[simp] theorem writeD_globals (r : Reg) (v : BitVec 64) (s : State) : (writeD r v s).globals = s.globals := rfl
@[simp] theorem writeD_windows (r : Reg) (v : BitVec 64) (s : State) : (writeD r v s).windows = s.windows := rfl
@[simp] theorem writeD_pc (r : Reg) (v : BitVec 64) (s : State) : (writeD r v s).pc = s.pc := rfl
@[simp] theorem writeD_npc (r : Reg) (v : BitVec 64) (s : State) : (writeD r v s).npc = s.npc := rfl
@[simp] theorem writeD_psr (r : Reg) (v : BitVec 64) (s : State) : (writeD r v s).psr = s.psr := rfl
@[simp] theorem writeD_wim (r : Reg) (v : BitVec 64) (s : State) : (writeD r v s).wim = s.wim := rfl
@[simp] theorem writeD_tbr (r : Reg) (v : BitVec 64) (s : State) : (writeD r v s).tbr = s.tbr := rfl
@[simp] theorem writeD_y (r : Reg) (v : BitVec 64) (s : State) : (writeD r v s).y = s.y := rfl
@[simp] theorem writeD_fsr (r : Reg) (v : BitVec 64) (s : State) : (writeD r v s).fsr = s.fsr := rfl
@[simp] theorem writeD_fq (r : Reg) (v : BitVec 64) (s : State) : (writeD r v s).fq = s.fq := rfl
@[simp] theorem writeD_fpMode (r : Reg) (v : BitVec 64) (s : State) : (writeD r v s).fpMode = s.fpMode := rfl
@[simp] theorem writeD_mmu (r : Reg) (v : BitVec 64) (s : State) : (writeD r v s).mmu = s.mmu := rfl
@[simp] theorem writeD_dtags (r : Reg) (v : BitVec 64) (s : State) : (writeD r v s).dtags = s.dtags := rfl
@[simp] theorem writeD_icacheCleared (r : Reg) (v : BitVec 64) (s : State) : (writeD r v s).icacheCleared = s.icacheCleared := rfl
@[simp] theorem writeD_mon (r : Reg) (v : BitVec 64) (s : State) : (writeD r v s).mon = s.mon := rfl
@[simp] theorem writeD_mem (r : Reg) (v : BitVec 64) (s : State) : (writeD r v s).mem = s.mem := rfl
@[simp] theorem writeD_stale (r : Reg) (v : BitVec 64) (s : State) : (writeD r v s).stale = s.stale := rfl
@[simp] theorem writeD_irl (r : Reg) (v : BitVec 64) (s : State) : (writeD r v s).irl = s.irl := rfl
@[simp] theorem writeD_errorMode (r : Reg) (v : BitVec 64) (s : State) : (writeD r v s).errorMode = s.errorMode := rfl
@[simp] theorem writeD_fresh (r : Reg) (v : BitVec 64) (s : State) : (writeD r v s).fresh = s.fresh := rfl
@[simp] theorem writeD_condTaken (r : Reg) (v : BitVec 64) (s : State) : (writeD r v s).condTaken = s.condTaken := rfl
@[simp] theorem writeD_trapped (r : Reg) (v : BitVec 64) (s : State) : (writeD r v s).trapped = s.trapped := rfl
@[simp] theorem writeD_wroteA (r : Reg) (v : BitVec 64) (s : State) : (writeD r v s).wroteA = s.wroteA := rfl
@[simp] theorem writeD_wroteB (r : Reg) (v : BitVec 64) (s : State) : (writeD r v s).wroteB = s.wroteB := rfl
/-! ## Program counters -/

@[simp] theorem advance_globals (s : State) : (advance s).globals = s.globals := rfl
@[simp] theorem advance_windows (s : State) : (advance s).windows = s.windows := rfl
@[simp] theorem advance_psr (s : State) : (advance s).psr = s.psr := rfl
@[simp] theorem advance_wim (s : State) : (advance s).wim = s.wim := rfl
@[simp] theorem advance_tbr (s : State) : (advance s).tbr = s.tbr := rfl
@[simp] theorem advance_y (s : State) : (advance s).y = s.y := rfl
@[simp] theorem advance_f (s : State) : (advance s).f = s.f := rfl
@[simp] theorem advance_fsr (s : State) : (advance s).fsr = s.fsr := rfl
@[simp] theorem advance_fq (s : State) : (advance s).fq = s.fq := rfl
@[simp] theorem advance_fpMode (s : State) : (advance s).fpMode = s.fpMode := rfl
@[simp] theorem advance_mmu (s : State) : (advance s).mmu = s.mmu := rfl
@[simp] theorem advance_dtags (s : State) : (advance s).dtags = s.dtags := rfl
@[simp] theorem advance_icacheCleared (s : State) : (advance s).icacheCleared = s.icacheCleared := rfl
@[simp] theorem advance_mon (s : State) : (advance s).mon = s.mon := rfl
@[simp] theorem advance_mem (s : State) : (advance s).mem = s.mem := rfl
@[simp] theorem advance_stale (s : State) : (advance s).stale = s.stale := rfl
@[simp] theorem advance_irl (s : State) : (advance s).irl = s.irl := rfl
@[simp] theorem advance_errorMode (s : State) : (advance s).errorMode = s.errorMode := rfl
@[simp] theorem advance_fresh (s : State) : (advance s).fresh = s.fresh := rfl
@[simp] theorem advance_trapped (s : State) : (advance s).trapped = s.trapped := rfl
@[simp] theorem advance_wroteA (s : State) : (advance s).wroteA = s.wroteA := rfl
@[simp] theorem advance_wroteB (s : State) : (advance s).wroteB = s.wroteB := rfl
@[simp] theorem advance_pc (s : State) : (advance s).pc = s.npc := rfl
@[simp] theorem advance_npc (s : State) : (advance s).npc = s.npc + 4 := rfl
@[simp] theorem advance_condTaken (s : State) : (advance s).condTaken = false := rfl
@[simp] theorem transfer_globals (k : Bool) (p n : Word) (s : State) : (transfer k p n s).globals = s.globals := by
  unfold transfer; split_ifs <;> rfl
@[simp] theorem transfer_windows (k : Bool) (p n : Word) (s : State) : (transfer k p n s).windows = s.windows := by
  unfold transfer; split_ifs <;> rfl
@[simp] theorem transfer_psr (k : Bool) (p n : Word) (s : State) : (transfer k p n s).psr = s.psr := by
  unfold transfer; split_ifs <;> rfl
@[simp] theorem transfer_wim (k : Bool) (p n : Word) (s : State) : (transfer k p n s).wim = s.wim := by
  unfold transfer; split_ifs <;> rfl
@[simp] theorem transfer_tbr (k : Bool) (p n : Word) (s : State) : (transfer k p n s).tbr = s.tbr := by
  unfold transfer; split_ifs <;> rfl
@[simp] theorem transfer_y (k : Bool) (p n : Word) (s : State) : (transfer k p n s).y = s.y := by
  unfold transfer; split_ifs <;> rfl
@[simp] theorem transfer_f (k : Bool) (p n : Word) (s : State) : (transfer k p n s).f = s.f := by
  unfold transfer; split_ifs <;> rfl
@[simp] theorem transfer_fsr (k : Bool) (p n : Word) (s : State) : (transfer k p n s).fsr = s.fsr := by
  unfold transfer; split_ifs <;> rfl
@[simp] theorem transfer_fq (k : Bool) (p n : Word) (s : State) : (transfer k p n s).fq = s.fq := by
  unfold transfer; split_ifs <;> rfl
@[simp] theorem transfer_fpMode (k : Bool) (p n : Word) (s : State) : (transfer k p n s).fpMode = s.fpMode := by
  unfold transfer; split_ifs <;> rfl
@[simp] theorem transfer_mmu (k : Bool) (p n : Word) (s : State) : (transfer k p n s).mmu = s.mmu := by
  unfold transfer; split_ifs <;> rfl
@[simp] theorem transfer_dtags (k : Bool) (p n : Word) (s : State) : (transfer k p n s).dtags = s.dtags := by
  unfold transfer; split_ifs <;> rfl
@[simp] theorem transfer_icacheCleared (k : Bool) (p n : Word) (s : State) : (transfer k p n s).icacheCleared = s.icacheCleared := by
  unfold transfer; split_ifs <;> rfl
@[simp] theorem transfer_mon (k : Bool) (p n : Word) (s : State) : (transfer k p n s).mon = s.mon := by
  unfold transfer; split_ifs <;> rfl
@[simp] theorem transfer_mem (k : Bool) (p n : Word) (s : State) : (transfer k p n s).mem = s.mem := by
  unfold transfer; split_ifs <;> rfl
@[simp] theorem transfer_stale (k : Bool) (p n : Word) (s : State) : (transfer k p n s).stale = s.stale := by
  unfold transfer; split_ifs <;> rfl
@[simp] theorem transfer_irl (k : Bool) (p n : Word) (s : State) : (transfer k p n s).irl = s.irl := by
  unfold transfer; split_ifs <;> rfl
@[simp] theorem transfer_errorMode (k : Bool) (p n : Word) (s : State) : (transfer k p n s).errorMode = s.errorMode := by
  unfold transfer; split_ifs <;> rfl
@[simp] theorem transfer_trapped (k : Bool) (p n : Word) (s : State) : (transfer k p n s).trapped = s.trapped := by
  unfold transfer; split_ifs <;> rfl
@[simp] theorem transfer_wroteA (k : Bool) (p n : Word) (s : State) : (transfer k p n s).wroteA = s.wroteA := by
  unfold transfer; split_ifs <;> rfl
@[simp] theorem transfer_wroteB (k : Bool) (p n : Word) (s : State) : (transfer k p n s).wroteB = s.wroteB := by
  unfold transfer; split_ifs <;> rfl
@[simp] theorem transfer_condTaken (k : Bool) (p n : Word) (s : State) : (transfer k p n s).condTaken = k := by
  unfold transfer; split_ifs <;> rfl
@[simp] theorem jump_globals (k : Bool) (t : Word) (s : State) : (jump k t s).globals = s.globals := by
  simp [jump]
@[simp] theorem jump_windows (k : Bool) (t : Word) (s : State) : (jump k t s).windows = s.windows := by
  simp [jump]
@[simp] theorem jump_psr (k : Bool) (t : Word) (s : State) : (jump k t s).psr = s.psr := by
  simp [jump]
@[simp] theorem jump_wim (k : Bool) (t : Word) (s : State) : (jump k t s).wim = s.wim := by
  simp [jump]
@[simp] theorem jump_tbr (k : Bool) (t : Word) (s : State) : (jump k t s).tbr = s.tbr := by
  simp [jump]
@[simp] theorem jump_y (k : Bool) (t : Word) (s : State) : (jump k t s).y = s.y := by
  simp [jump]
@[simp] theorem jump_f (k : Bool) (t : Word) (s : State) : (jump k t s).f = s.f := by
  simp [jump]
@[simp] theorem jump_fsr (k : Bool) (t : Word) (s : State) : (jump k t s).fsr = s.fsr := by
  simp [jump]
@[simp] theorem jump_fq (k : Bool) (t : Word) (s : State) : (jump k t s).fq = s.fq := by
  simp [jump]
@[simp] theorem jump_fpMode (k : Bool) (t : Word) (s : State) : (jump k t s).fpMode = s.fpMode := by
  simp [jump]
@[simp] theorem jump_mmu (k : Bool) (t : Word) (s : State) : (jump k t s).mmu = s.mmu := by
  simp [jump]
@[simp] theorem jump_dtags (k : Bool) (t : Word) (s : State) : (jump k t s).dtags = s.dtags := by
  simp [jump]
@[simp] theorem jump_icacheCleared (k : Bool) (t : Word) (s : State) : (jump k t s).icacheCleared = s.icacheCleared := by
  simp [jump]
@[simp] theorem jump_mon (k : Bool) (t : Word) (s : State) : (jump k t s).mon = s.mon := by
  simp [jump]
@[simp] theorem jump_mem (k : Bool) (t : Word) (s : State) : (jump k t s).mem = s.mem := by
  simp [jump]
@[simp] theorem jump_stale (k : Bool) (t : Word) (s : State) : (jump k t s).stale = s.stale := by
  simp [jump]
@[simp] theorem jump_irl (k : Bool) (t : Word) (s : State) : (jump k t s).irl = s.irl := by
  simp [jump]
@[simp] theorem jump_errorMode (k : Bool) (t : Word) (s : State) : (jump k t s).errorMode = s.errorMode := by
  simp [jump]
@[simp] theorem jump_trapped (k : Bool) (t : Word) (s : State) : (jump k t s).trapped = s.trapped := by
  simp [jump]
@[simp] theorem jump_wroteA (k : Bool) (t : Word) (s : State) : (jump k t s).wroteA = s.wroteA := by
  simp [jump]
@[simp] theorem jump_wroteB (k : Bool) (t : Word) (s : State) : (jump k t s).wroteB = s.wroteB := by
  simp [jump]
@[simp] theorem jump_condTaken (k : Bool) (t : Word) (s : State) : (jump k t s).condTaken = k := by
  simp [jump]
/-! ## Condition codes -/

@[simp] theorem setIcc_globals (i : Icc) (s : State) : (setIcc i s).globals = s.globals := rfl
@[simp] theorem setIcc_windows (i : Icc) (s : State) : (setIcc i s).windows = s.windows := rfl
@[simp] theorem setIcc_pc (i : Icc) (s : State) : (setIcc i s).pc = s.pc := rfl
@[simp] theorem setIcc_npc (i : Icc) (s : State) : (setIcc i s).npc = s.npc := rfl
@[simp] theorem setIcc_wim (i : Icc) (s : State) : (setIcc i s).wim = s.wim := rfl
@[simp] theorem setIcc_tbr (i : Icc) (s : State) : (setIcc i s).tbr = s.tbr := rfl
@[simp] theorem setIcc_y (i : Icc) (s : State) : (setIcc i s).y = s.y := rfl
@[simp] theorem setIcc_f (i : Icc) (s : State) : (setIcc i s).f = s.f := rfl
@[simp] theorem setIcc_fsr (i : Icc) (s : State) : (setIcc i s).fsr = s.fsr := rfl
@[simp] theorem setIcc_fq (i : Icc) (s : State) : (setIcc i s).fq = s.fq := rfl
@[simp] theorem setIcc_fpMode (i : Icc) (s : State) : (setIcc i s).fpMode = s.fpMode := rfl
@[simp] theorem setIcc_mmu (i : Icc) (s : State) : (setIcc i s).mmu = s.mmu := rfl
@[simp] theorem setIcc_dtags (i : Icc) (s : State) : (setIcc i s).dtags = s.dtags := rfl
@[simp] theorem setIcc_icacheCleared (i : Icc) (s : State) : (setIcc i s).icacheCleared = s.icacheCleared := rfl
@[simp] theorem setIcc_mon (i : Icc) (s : State) : (setIcc i s).mon = s.mon := rfl
@[simp] theorem setIcc_mem (i : Icc) (s : State) : (setIcc i s).mem = s.mem := rfl
@[simp] theorem setIcc_stale (i : Icc) (s : State) : (setIcc i s).stale = s.stale := rfl
@[simp] theorem setIcc_irl (i : Icc) (s : State) : (setIcc i s).irl = s.irl := rfl
@[simp] theorem setIcc_errorMode (i : Icc) (s : State) : (setIcc i s).errorMode = s.errorMode := rfl
@[simp] theorem setIcc_fresh (i : Icc) (s : State) : (setIcc i s).fresh = s.fresh := rfl
@[simp] theorem setIcc_condTaken (i : Icc) (s : State) : (setIcc i s).condTaken = s.condTaken := rfl
@[simp] theorem setIcc_trapped (i : Icc) (s : State) : (setIcc i s).trapped = s.trapped := rfl
@[simp] theorem setIcc_wroteA (i : Icc) (s : State) : (setIcc i s).wroteA = s.wroteA := rfl
@[simp] theorem setIcc_wroteB (i : Icc) (s : State) : (setIcc i s).wroteB = s.wroteB := rfl
@[simp] theorem setIcc_psr (i : Icc) (s : State) : (setIcc i s).psr = { s.psr with n := i.n, z := i.z, v := i.v, c := i.c } := rfl
/-! ## Memory -/

@[simp] theorem storeBytes_globals (pa : PAddr) (bs : List Byte) (s : State) : (storeBytes pa bs s).globals = s.globals := rfl
@[simp] theorem storeBytes_windows (pa : PAddr) (bs : List Byte) (s : State) : (storeBytes pa bs s).windows = s.windows := rfl
@[simp] theorem storeBytes_pc (pa : PAddr) (bs : List Byte) (s : State) : (storeBytes pa bs s).pc = s.pc := rfl
@[simp] theorem storeBytes_npc (pa : PAddr) (bs : List Byte) (s : State) : (storeBytes pa bs s).npc = s.npc := rfl
@[simp] theorem storeBytes_psr (pa : PAddr) (bs : List Byte) (s : State) : (storeBytes pa bs s).psr = s.psr := rfl
@[simp] theorem storeBytes_wim (pa : PAddr) (bs : List Byte) (s : State) : (storeBytes pa bs s).wim = s.wim := rfl
@[simp] theorem storeBytes_tbr (pa : PAddr) (bs : List Byte) (s : State) : (storeBytes pa bs s).tbr = s.tbr := rfl
@[simp] theorem storeBytes_y (pa : PAddr) (bs : List Byte) (s : State) : (storeBytes pa bs s).y = s.y := rfl
@[simp] theorem storeBytes_f (pa : PAddr) (bs : List Byte) (s : State) : (storeBytes pa bs s).f = s.f := rfl
@[simp] theorem storeBytes_fsr (pa : PAddr) (bs : List Byte) (s : State) : (storeBytes pa bs s).fsr = s.fsr := rfl
@[simp] theorem storeBytes_fq (pa : PAddr) (bs : List Byte) (s : State) : (storeBytes pa bs s).fq = s.fq := rfl
@[simp] theorem storeBytes_fpMode (pa : PAddr) (bs : List Byte) (s : State) : (storeBytes pa bs s).fpMode = s.fpMode := rfl
@[simp] theorem storeBytes_mmu (pa : PAddr) (bs : List Byte) (s : State) : (storeBytes pa bs s).mmu = s.mmu := rfl
@[simp] theorem storeBytes_dtags (pa : PAddr) (bs : List Byte) (s : State) : (storeBytes pa bs s).dtags = s.dtags := rfl
@[simp] theorem storeBytes_icacheCleared (pa : PAddr) (bs : List Byte) (s : State) : (storeBytes pa bs s).icacheCleared = s.icacheCleared := rfl
@[simp] theorem storeBytes_mon (pa : PAddr) (bs : List Byte) (s : State) : (storeBytes pa bs s).mon = s.mon := rfl
@[simp] theorem storeBytes_irl (pa : PAddr) (bs : List Byte) (s : State) : (storeBytes pa bs s).irl = s.irl := rfl
@[simp] theorem storeBytes_errorMode (pa : PAddr) (bs : List Byte) (s : State) : (storeBytes pa bs s).errorMode = s.errorMode := rfl
@[simp] theorem storeBytes_fresh (pa : PAddr) (bs : List Byte) (s : State) : (storeBytes pa bs s).fresh = s.fresh := rfl
@[simp] theorem storeBytes_condTaken (pa : PAddr) (bs : List Byte) (s : State) : (storeBytes pa bs s).condTaken = s.condTaken := rfl
@[simp] theorem storeBytes_trapped (pa : PAddr) (bs : List Byte) (s : State) : (storeBytes pa bs s).trapped = s.trapped := rfl
@[simp] theorem storeBytes_wroteA (pa : PAddr) (bs : List Byte) (s : State) : (storeBytes pa bs s).wroteA = s.wroteA := rfl
@[simp] theorem storeBytes_wroteB (pa : PAddr) (bs : List Byte) (s : State) : (storeBytes pa bs s).wroteB = s.wroteB := rfl
@[simp] theorem storeBytes_mem (pa : PAddr) (bs : List Byte) (s : State) : (storeBytes pa bs s).mem = Memory.writeBytes s.mem pa.toNat bs := rfl
@[simp] theorem writeTarget_globals (w : Width) (k : DwordKind) (t : Target) (d : BitVec 64) (s : State) : (writeTarget w k t d s).globals = s.globals := rfl
@[simp] theorem writeTarget_windows (w : Width) (k : DwordKind) (t : Target) (d : BitVec 64) (s : State) : (writeTarget w k t d s).windows = s.windows := rfl
@[simp] theorem writeTarget_pc (w : Width) (k : DwordKind) (t : Target) (d : BitVec 64) (s : State) : (writeTarget w k t d s).pc = s.pc := rfl
@[simp] theorem writeTarget_npc (w : Width) (k : DwordKind) (t : Target) (d : BitVec 64) (s : State) : (writeTarget w k t d s).npc = s.npc := rfl
@[simp] theorem writeTarget_psr (w : Width) (k : DwordKind) (t : Target) (d : BitVec 64) (s : State) : (writeTarget w k t d s).psr = s.psr := rfl
@[simp] theorem writeTarget_wim (w : Width) (k : DwordKind) (t : Target) (d : BitVec 64) (s : State) : (writeTarget w k t d s).wim = s.wim := rfl
@[simp] theorem writeTarget_tbr (w : Width) (k : DwordKind) (t : Target) (d : BitVec 64) (s : State) : (writeTarget w k t d s).tbr = s.tbr := rfl
@[simp] theorem writeTarget_y (w : Width) (k : DwordKind) (t : Target) (d : BitVec 64) (s : State) : (writeTarget w k t d s).y = s.y := rfl
@[simp] theorem writeTarget_f (w : Width) (k : DwordKind) (t : Target) (d : BitVec 64) (s : State) : (writeTarget w k t d s).f = s.f := rfl
@[simp] theorem writeTarget_fsr (w : Width) (k : DwordKind) (t : Target) (d : BitVec 64) (s : State) : (writeTarget w k t d s).fsr = s.fsr := rfl
@[simp] theorem writeTarget_fq (w : Width) (k : DwordKind) (t : Target) (d : BitVec 64) (s : State) : (writeTarget w k t d s).fq = s.fq := rfl
@[simp] theorem writeTarget_fpMode (w : Width) (k : DwordKind) (t : Target) (d : BitVec 64) (s : State) : (writeTarget w k t d s).fpMode = s.fpMode := rfl
@[simp] theorem writeTarget_mmu (w : Width) (k : DwordKind) (t : Target) (d : BitVec 64) (s : State) : (writeTarget w k t d s).mmu = s.mmu := rfl
@[simp] theorem writeTarget_dtags (w : Width) (k : DwordKind) (t : Target) (d : BitVec 64) (s : State) : (writeTarget w k t d s).dtags = s.dtags := rfl
@[simp] theorem writeTarget_icacheCleared (w : Width) (k : DwordKind) (t : Target) (d : BitVec 64) (s : State) : (writeTarget w k t d s).icacheCleared = s.icacheCleared := rfl
@[simp] theorem writeTarget_mon (w : Width) (k : DwordKind) (t : Target) (d : BitVec 64) (s : State) : (writeTarget w k t d s).mon = s.mon := rfl
@[simp] theorem writeTarget_irl (w : Width) (k : DwordKind) (t : Target) (d : BitVec 64) (s : State) : (writeTarget w k t d s).irl = s.irl := rfl
@[simp] theorem writeTarget_errorMode (w : Width) (k : DwordKind) (t : Target) (d : BitVec 64) (s : State) : (writeTarget w k t d s).errorMode = s.errorMode := rfl
@[simp] theorem writeTarget_fresh (w : Width) (k : DwordKind) (t : Target) (d : BitVec 64) (s : State) : (writeTarget w k t d s).fresh = s.fresh := rfl
@[simp] theorem writeTarget_condTaken (w : Width) (k : DwordKind) (t : Target) (d : BitVec 64) (s : State) : (writeTarget w k t d s).condTaken = s.condTaken := rfl
@[simp] theorem writeTarget_trapped (w : Width) (k : DwordKind) (t : Target) (d : BitVec 64) (s : State) : (writeTarget w k t d s).trapped = s.trapped := rfl
@[simp] theorem writeTarget_wroteA (w : Width) (k : DwordKind) (t : Target) (d : BitVec 64) (s : State) : (writeTarget w k t d s).wroteA = s.wroteA := rfl
@[simp] theorem writeTarget_wroteB (w : Width) (k : DwordKind) (t : Target) (d : BitVec 64) (s : State) : (writeTarget w k t d s).wroteB = s.wroteB := rfl
/-! ## Traps -/

@[simp] theorem takeTrap_wim (tt : TrapType) (s : State) : (takeTrap tt s).wim = s.wim := by
  unfold takeTrap; split <;> simp
@[simp] theorem takeTrap_y (tt : TrapType) (s : State) : (takeTrap tt s).y = s.y := by
  unfold takeTrap; split <;> simp
@[simp] theorem takeTrap_f (tt : TrapType) (s : State) : (takeTrap tt s).f = s.f := by
  unfold takeTrap; split <;> simp
@[simp] theorem takeTrap_fsr (tt : TrapType) (s : State) : (takeTrap tt s).fsr = s.fsr := by
  unfold takeTrap; split <;> simp
@[simp] theorem takeTrap_fq (tt : TrapType) (s : State) : (takeTrap tt s).fq = s.fq := by
  unfold takeTrap; split <;> simp
@[simp] theorem takeTrap_fpMode (tt : TrapType) (s : State) : (takeTrap tt s).fpMode = s.fpMode := by
  unfold takeTrap; split <;> simp
@[simp] theorem takeTrap_mmu (tt : TrapType) (s : State) : (takeTrap tt s).mmu = s.mmu := by
  unfold takeTrap; split <;> simp
@[simp] theorem takeTrap_dtags (tt : TrapType) (s : State) : (takeTrap tt s).dtags = s.dtags := by
  unfold takeTrap; split <;> simp
@[simp] theorem takeTrap_icacheCleared (tt : TrapType) (s : State) : (takeTrap tt s).icacheCleared = s.icacheCleared := by
  unfold takeTrap; split <;> simp
@[simp] theorem takeTrap_mon (tt : TrapType) (s : State) : (takeTrap tt s).mon = s.mon := by
  unfold takeTrap; split <;> simp
@[simp] theorem takeTrap_mem (tt : TrapType) (s : State) : (takeTrap tt s).mem = s.mem := by
  unfold takeTrap; split <;> simp
@[simp] theorem takeTrap_stale (tt : TrapType) (s : State) : (takeTrap tt s).stale = s.stale := by
  unfold takeTrap; split <;> simp
@[simp] theorem takeTrap_irl (tt : TrapType) (s : State) : (takeTrap tt s).irl = s.irl := by
  unfold takeTrap; split <;> simp
@[simp] theorem takeTrap_fresh (tt : TrapType) (s : State) : (takeTrap tt s).fresh = s.fresh := by
  unfold takeTrap; split <;> simp
@[simp] theorem takeTrap_wroteA (tt : TrapType) (s : State) : (takeTrap tt s).wroteA = s.wroteA := by
  unfold takeTrap; split <;> simp
@[simp] theorem takeTrap_wroteB (tt : TrapType) (s : State) : (takeTrap tt s).wroteB = s.wroteB := by
  unfold takeTrap; split <;> simp
@[simp] theorem takeTrap_trapped (tt : TrapType) (s : State) : (takeTrap tt s).trapped = true := by
  unfold takeTrap; split <;> simp
@[simp] theorem takeTrap_tbr (tt : TrapType) (s : State) : (takeTrap tt s).tbr = { s.tbr with tt := tt } := by
  unfold takeTrap; split <;> simp
/-! ## Queue -/

@[simp] theorem enqueue_globals (i : Instr) (s : State) : (enqueue i s).globals = s.globals := rfl
@[simp] theorem enqueue_windows (i : Instr) (s : State) : (enqueue i s).windows = s.windows := rfl
@[simp] theorem enqueue_pc (i : Instr) (s : State) : (enqueue i s).pc = s.pc := rfl
@[simp] theorem enqueue_npc (i : Instr) (s : State) : (enqueue i s).npc = s.npc := rfl
@[simp] theorem enqueue_psr (i : Instr) (s : State) : (enqueue i s).psr = s.psr := rfl
@[simp] theorem enqueue_wim (i : Instr) (s : State) : (enqueue i s).wim = s.wim := rfl
@[simp] theorem enqueue_tbr (i : Instr) (s : State) : (enqueue i s).tbr = s.tbr := rfl
@[simp] theorem enqueue_y (i : Instr) (s : State) : (enqueue i s).y = s.y := rfl
@[simp] theorem enqueue_f (i : Instr) (s : State) : (enqueue i s).f = s.f := rfl
@[simp] theorem enqueue_fsr (i : Instr) (s : State) : (enqueue i s).fsr = s.fsr := rfl
@[simp] theorem enqueue_mmu (i : Instr) (s : State) : (enqueue i s).mmu = s.mmu := rfl
@[simp] theorem enqueue_dtags (i : Instr) (s : State) : (enqueue i s).dtags = s.dtags := rfl
@[simp] theorem enqueue_icacheCleared (i : Instr) (s : State) : (enqueue i s).icacheCleared = s.icacheCleared := rfl
@[simp] theorem enqueue_mon (i : Instr) (s : State) : (enqueue i s).mon = s.mon := rfl
@[simp] theorem enqueue_mem (i : Instr) (s : State) : (enqueue i s).mem = s.mem := rfl
@[simp] theorem enqueue_stale (i : Instr) (s : State) : (enqueue i s).stale = s.stale := rfl
@[simp] theorem enqueue_irl (i : Instr) (s : State) : (enqueue i s).irl = s.irl := rfl
@[simp] theorem enqueue_errorMode (i : Instr) (s : State) : (enqueue i s).errorMode = s.errorMode := rfl
@[simp] theorem enqueue_fresh (i : Instr) (s : State) : (enqueue i s).fresh = s.fresh := rfl
@[simp] theorem enqueue_condTaken (i : Instr) (s : State) : (enqueue i s).condTaken = s.condTaken := rfl
@[simp] theorem enqueue_trapped (i : Instr) (s : State) : (enqueue i s).trapped = s.trapped := rfl
@[simp] theorem enqueue_wroteA (i : Instr) (s : State) : (enqueue i s).wroteA = s.wroteA := rfl
@[simp] theorem enqueue_wroteB (i : Instr) (s : State) : (enqueue i s).wroteB = s.wroteB := rfl
@[simp] theorem enqueue_fq (i : Instr) (s : State) : (enqueue i s).fq = [(s.pc, encode i)] := rfl
@[simp] theorem enqueue_fpMode (i : Instr) (s : State) : (enqueue i s).fpMode = .exceptionPending := rfl
@[simp] theorem dequeue_globals (s : State) : (dequeue s).globals = s.globals := rfl
@[simp] theorem dequeue_windows (s : State) : (dequeue s).windows = s.windows := rfl
@[simp] theorem dequeue_pc (s : State) : (dequeue s).pc = s.pc := rfl
@[simp] theorem dequeue_npc (s : State) : (dequeue s).npc = s.npc := rfl
@[simp] theorem dequeue_psr (s : State) : (dequeue s).psr = s.psr := rfl
@[simp] theorem dequeue_wim (s : State) : (dequeue s).wim = s.wim := rfl
@[simp] theorem dequeue_tbr (s : State) : (dequeue s).tbr = s.tbr := rfl
@[simp] theorem dequeue_y (s : State) : (dequeue s).y = s.y := rfl
@[simp] theorem dequeue_f (s : State) : (dequeue s).f = s.f := rfl
@[simp] theorem dequeue_fsr (s : State) : (dequeue s).fsr = s.fsr := rfl
@[simp] theorem dequeue_mmu (s : State) : (dequeue s).mmu = s.mmu := rfl
@[simp] theorem dequeue_dtags (s : State) : (dequeue s).dtags = s.dtags := rfl
@[simp] theorem dequeue_icacheCleared (s : State) : (dequeue s).icacheCleared = s.icacheCleared := rfl
@[simp] theorem dequeue_mon (s : State) : (dequeue s).mon = s.mon := rfl
@[simp] theorem dequeue_mem (s : State) : (dequeue s).mem = s.mem := rfl
@[simp] theorem dequeue_stale (s : State) : (dequeue s).stale = s.stale := rfl
@[simp] theorem dequeue_irl (s : State) : (dequeue s).irl = s.irl := rfl
@[simp] theorem dequeue_errorMode (s : State) : (dequeue s).errorMode = s.errorMode := rfl
@[simp] theorem dequeue_fresh (s : State) : (dequeue s).fresh = s.fresh := rfl
@[simp] theorem dequeue_condTaken (s : State) : (dequeue s).condTaken = s.condTaken := rfl
@[simp] theorem dequeue_trapped (s : State) : (dequeue s).trapped = s.trapped := rfl
@[simp] theorem dequeue_wroteA (s : State) : (dequeue s).wroteA = s.wroteA := rfl
@[simp] theorem dequeue_wroteB (s : State) : (dequeue s).wroteB = s.wroteB := rfl
@[simp] theorem dequeue_fq (s : State) : (dequeue s).fq = s.fq.tail := rfl

end Sys2Proof.Machine
end

