-- ==== Sys2Proof/Laws/Registers.lean ====
section
/-! SUPPORT. Reading registers after writing them. -/

namespace Sys2Proof.Machine

/-! ## Integer registers -/

@[simp] theorem readRegIn_zero (w : BitVec 3) (s : State) : readRegIn w 0#5 s = 0#32 := rfl

@[simp] theorem readReg_zero (s : State) : readReg 0#5 s = 0#32 := rfl

@[simp] theorem writeRegIn_zero (w : BitVec 3) (v : Word) (s : State) : writeRegIn w 0#5 v s = s := rfl

@[simp] theorem writeReg_zero (v : Word) (s : State) : writeReg 0#5 v s = s := rfl

theorem readRegIn_global (w : BitVec 3) {r : Reg} (h : r ≠ 0) (g : r.toNat < 8) (s : State) :
    readRegIn w r s = s.globals[r.toNat] := by
  rw [readRegIn, if_neg h, dif_pos g]

theorem readRegIn_windowed (w : BitVec 3) {r : Reg} (g : ¬ r.toNat < 8) (s : State) :
    readRegIn w r s = s.windows[windowIndex w r] := by
  rw [readRegIn, if_neg (by rintro rfl; exact g (by decide)), dif_neg g]

theorem writeRegIn_global (w : BitVec 3) {r : Reg} (h : r ≠ 0) (g : r.toNat < 8) (v : Word) (s : State) :
    writeRegIn w r v s = { s with globals := s.globals.set r.toNat v } := by
  rw [writeRegIn, if_neg h, dif_pos g]

theorem writeRegIn_windowed (w : BitVec 3) {r : Reg} (g : ¬ r.toNat < 8) (v : Word) (s : State) :
    writeRegIn w r v s = { s with windows := s.windows.set (windowIndex w r) v } := by
  rw [writeRegIn, if_neg (by rintro rfl; exact g (by decide)), dif_neg g]

/-- A register other than `%g0` holds what has been written to it. -/
theorem readRegIn_writeRegIn_same (w : BitVec 3) {r : Reg} (h : r ≠ 0) (v : Word) (s : State) :
    readRegIn w r (writeRegIn w r v s) = v := by
  by_cases g : r.toNat < 8
  · simp [readRegIn_global w h g, writeRegIn_global w h g]
  · simp [readRegIn_windowed w g, writeRegIn_windowed w g]

/-- What a register holds after a write of it: `%g0` stays 0. -/
theorem readReg_writeReg_same (r : Reg) (v : Word) (s : State) :
    readReg r (writeReg r v s) = if r = 0 then 0 else v := by
  by_cases h : r = 0
  · subst h; rfl
  · rw [if_neg h, readReg, writeReg_psr]
    exact readRegIn_writeRegIn_same _ h v s

/-- A windowed register does not change when a windowed register at another place is written. -/
theorem readRegIn_writeRegIn_of_index_ne (w w' : BitVec 3) {r q : Reg} (hr : ¬ r.toNat < 8) (hq : ¬ q.toNat < 8)
    (h : windowIndex w r ≠ windowIndex w' q) (v : Word) (s : State) :
    readRegIn w r (writeRegIn w' q v s) = readRegIn w r s := by
  have h' : (windowIndex w' q).val ≠ (windowIndex w r).val := fun e => h (Fin.ext e.symm)
  simp [readRegIn_windowed w hr, writeRegIn_windowed w' hq, Vector.getElem_set_ne, h']

/-- A global register does not change when another register is written. -/
theorem readRegIn_writeRegIn_of_global_ne (w w' : BitVec 3) {r q : Reg} (hr : r.toNat < 8) (h : r ≠ q) (v : Word)
    (s : State) : readRegIn w r (writeRegIn w' q v s) = readRegIn w r s := by
  have h' : q.toNat ≠ r.toNat := fun e => h (BitVec.eq_of_toNat_eq e.symm)
  by_cases zr : r = 0
  · subst zr; rfl
  by_cases zq : q = 0
  · subst zq; rfl
  by_cases gq : q.toNat < 8
  · simp [readRegIn_global w zr hr, writeRegIn_global w' zq gq, Vector.getElem_set_ne, h']
  · simp [readRegIn_global w zr hr, writeRegIn_windowed w' gq]

/-- A windowed register does not change when a global register is written. -/
theorem readRegIn_writeRegIn_of_global (w w' : BitVec 3) {r q : Reg} (hr : ¬ r.toNat < 8) (hq : q.toNat < 8) (v : Word)
    (s : State) : readRegIn w r (writeRegIn w' q v s) = readRegIn w r s := by
  by_cases zq : q = 0
  · subst zq; rfl
  · simp [readRegIn_windowed w hr, writeRegIn_global w' zq hq]

/-- The integer registers of two states with equal register files read alike. -/
theorem readRegIn_congr {s t : State} (hg : t.globals = s.globals) (hw : t.windows = s.windows) (w : BitVec 3) (r : Reg) :
    readRegIn w r t = readRegIn w r s := by
  unfold readRegIn
  simp [hg, hw]

@[simp] theorem mapVec_getElem {α β : Type} {n : Nat} (f : α → β) (v : Vector α n) (i : Fin n) :
    (mapVec f v)[i] = f v[i] := by
  simp [mapVec]

/-! ## Floating-point registers -/

@[simp] theorem readF_writeF_same (r : Reg) (v : Word) (s : State) : readF r (writeF r v s) = v := by
  simp [readF, writeF]

theorem readF_writeF_of_ne {r q : Reg} (h : r ≠ q) (v : Word) (s : State) : readF r (writeF q v s) = readF r s := by
  have h' : q.toNat ≠ r.toNat := fun e => h (BitVec.eq_of_toNat_eq e.symm)
  simp [readF, writeF, Vector.getElem_set_ne, h']

theorem pairOdd_ne_pairEven (r q : Reg) : pairOdd r ≠ pairEven q := by
  intro h
  have := congrArg (fun x : BitVec 5 => x.getLsbD 0) h
  simp [pairOdd, pairEven] at this

@[simp] theorem pairEven_pairOdd (r : Reg) : pairEven (pairOdd r) = pairEven r := by
  revert r; decide

@[simp] theorem pairOdd_pairEven (r : Reg) : pairOdd (pairEven r) = pairOdd r := by
  revert r; decide

theorem split_double (v : BitVec 64) : v.extractLsb' 32 32 ++ v.extractLsb' 0 32 = v := by
  apply BitVec.eq_of_getLsbD_eq
  intro i hi
  rw [BitVec.getLsbD_append]
  by_cases h : i < 32
  · simp [h]
  · simp [h, show i - 32 < 32 by omega, show 32 + (i - 32) = i by omega]

@[simp] theorem readD_writeD_same (r : Reg) (v : BitVec 64) (s : State) : readD r (writeD r v s) = v := by
  unfold readD writeD
  rw [readF_writeF_of_ne (pairOdd_ne_pairEven r r).symm, readF_writeF_same, readF_writeF_same]
  exact split_double v

/-- A write of a double changes the two registers of its pair alone. -/
theorem readF_writeD_of_ne {r q : Reg} (he : r ≠ pairEven q) (ho : r ≠ pairOdd q) (v : BitVec 64) (s : State) :
    readF r (writeD q v s) = readF r s := by
  unfold writeD
  rw [readF_writeF_of_ne ho, readF_writeF_of_ne he]

end Sys2Proof.Machine
end

