-- ==== Sys2Proof/Laws/Memory.lean ====
section
/-! SUPPORT. Physical memory: reading after writing, and the canonical form. -/

namespace Sys2Proof.Machine

/-! ## One byte -/

/-- A write of a byte leaves every other byte, in any list. -/
theorem readByte_writeByte_of_ne (m : List Host.Cell) {a c : Nat} (b : Byte) (h : c ≠ a) :
    Memory.readByte (Memory.writeByte m a b) c = Memory.readByte m c := by
  induction m with
  | nil =>
    unfold Memory.writeByte
    split_ifs
    · rfl
    · simp [Memory.readByte, Ne.symm h]
  | cons e r ih =>
    obtain ⟨k, v⟩ := e
    unfold Memory.writeByte
    split_ifs with h1 h2 h3 h4
    · rfl
    · simp [Memory.readByte, Ne.symm h]
    · subst h3; simp [Memory.readByte, Ne.symm h]
    · subst h3; simp [Memory.readByte, Ne.symm h]
    · simp [Memory.readByte, ih]

/-- A canonical list from `lo` up lists nothing below `lo`. -/
theorem readByte_of_lt {m : List Host.Cell} {lo a : Nat} (hw : Memory.wfFrom lo m = true) (h : a < lo) :
    Memory.readByte m a = 0 := by
  induction m generalizing lo with
  | nil => rfl
  | cons e r ih =>
    obtain ⟨k, v⟩ := e
    simp only [Memory.wfFrom, Bool.and_eq_true, decide_eq_true_eq] at hw
    rw [Memory.readByte, if_neg (by omega)]
    exact ih hw.2 (by omega)

/-- A byte reads as it has been written. -/
theorem readByte_writeByte_same_from {m : List Host.Cell} {lo : Nat} (a : Nat) (b : Byte)
    (hw : Memory.wfFrom lo m = true) : Memory.readByte (Memory.writeByte m a b) a = b := by
  induction m generalizing lo with
  | nil =>
    unfold Memory.writeByte
    split_ifs with h
    · exact h.symm
    · simp [Memory.readByte]
  | cons e r ih =>
    obtain ⟨k, v⟩ := e
    have hw' := hw
    simp only [Memory.wfFrom, Bool.and_eq_true, decide_eq_true_eq] at hw
    unfold Memory.writeByte
    split_ifs with h1 h2 h3 h4
    · rw [h2, Memory.readByte, if_neg (by omega)]
      exact readByte_of_lt hw.2 (by omega)
    · simp [Memory.readByte]
    · rw [h4, h3]
      exact readByte_of_lt hw.2 (by omega)
    · simp [Memory.readByte]
    · rw [Memory.readByte, if_neg (by omega)]
      exact ih hw.2

/-- A byte of canonical memory reads as it has been written. -/
theorem readByte_writeByte_same {m : List Host.Cell} (a : Nat) (b : Byte) (hw : Memory.wf m = true) :
    Memory.readByte (Memory.writeByte m a b) a = b := readByte_writeByte_same_from a b hw

/-- A canonical list from `lo` up is one from any lower bound. -/
theorem wfFrom_mono {m : List Host.Cell} {lo lo' : Nat} (hw : Memory.wfFrom lo m = true) (h : lo' ≤ lo) :
    Memory.wfFrom lo' m = true := by
  cases m with
  | nil => rfl
  | cons e r =>
    obtain ⟨k, v⟩ := e
    simp only [Memory.wfFrom, Bool.and_eq_true, decide_eq_true_eq] at hw ⊢
    exact ⟨⟨⟨by omega, hw.1.1.2⟩, hw.1.2⟩, hw.2⟩

theorem writeByte_wfFrom {m : List Host.Cell} {lo a : Nat} (b : Byte) (hw : Memory.wfFrom lo m = true) (hl : lo ≤ a)
    (ha : a < 2 ^ 36) : Memory.wfFrom lo (Memory.writeByte m a b) = true := by
  induction m generalizing lo with
  | nil =>
    unfold Memory.writeByte
    split_ifs with h
    · rfl
    · simp only [Memory.wfFrom, Bool.and_eq_true, decide_eq_true_eq, bne_iff_ne]
      exact ⟨⟨⟨hl, ha⟩, h⟩, trivial⟩
  | cons e r ih =>
    obtain ⟨k, v⟩ := e
    have hw' := hw
    simp only [Memory.wfFrom, Bool.and_eq_true, decide_eq_true_eq] at hw
    unfold Memory.writeByte
    split_ifs with h1 h2 h3 h4
    · exact hw'
    · simp only [Memory.wfFrom, Bool.and_eq_true, decide_eq_true_eq, bne_iff_ne]
      exact ⟨⟨⟨hl, ha⟩, h2⟩, ⟨⟨by omega, hw.1.1.2⟩, by simpa using hw.1.2⟩, hw.2⟩
    · exact wfFrom_mono hw.2 (by omega)
    · simp only [Memory.wfFrom, Bool.and_eq_true, decide_eq_true_eq, bne_iff_ne]
      exact ⟨⟨⟨hl, ha⟩, h4⟩, by rw [h3]; exact hw.2⟩
    · simp only [Memory.wfFrom, Bool.and_eq_true, decide_eq_true_eq]
      exact ⟨hw.1, ih hw.2 (by omega)⟩

/-- A write of a byte keeps the canonical form. -/
theorem writeByte_wf {m : List Host.Cell} {a : Nat} (b : Byte) (hw : Memory.wf m = true) (ha : a < 2 ^ 36) :
    Memory.wf (Memory.writeByte m a b) = true := writeByte_wfFrom b hw (Nat.zero_le a) ha

/-! ## Several bytes -/

/-- A write of bytes leaves every byte outside them, in any list. -/
theorem readByte_writeBytes_outside (m : List Host.Cell) {a c : Nat} (bs : List Byte) (h : c < a ∨ a + bs.length ≤ c) :
    Memory.readByte (Memory.writeBytes m a bs) c = Memory.readByte m c := by
  induction bs generalizing m a with
  | nil => rfl
  | cons b r ih =>
    simp only [List.length_cons] at h
    rw [Memory.writeBytes, ih _ (by omega), readByte_writeByte_of_ne _ _ (by omega)]

/-- A write of bytes keeps the canonical form. -/
theorem writeBytes_wf {m : List Host.Cell} {a : Nat} (bs : List Byte) (hw : Memory.wf m = true)
    (ha : a + bs.length ≤ 2 ^ 36) : Memory.wf (Memory.writeBytes m a bs) = true := by
  induction bs generalizing m a with
  | nil => exact hw
  | cons b r ih =>
    simp only [List.length_cons] at ha
    exact ih (writeByte_wf b hw (by omega)) (by omega)

theorem readBytes_congr {m m' : List Host.Cell} {a n : Nat}
    (h : ∀ c, a ≤ c → c < a + n → Memory.readByte m c = Memory.readByte m' c) :
    Memory.readBytes m a n = Memory.readBytes m' a n := by
  induction n generalizing a with
  | zero => rfl
  | succ n ih =>
    rw [Memory.readBytes, Memory.readBytes, h a (by omega) (by omega), ih fun c h1 h2 => h c (by omega) (by omega)]

/-- Bytes of canonical memory read as they have been written. -/
theorem readBytes_writeBytes_same {m : List Host.Cell} {a : Nat} (bs : List Byte) (hw : Memory.wf m = true)
    (ha : a + bs.length ≤ 2 ^ 36) : Memory.readBytes (Memory.writeBytes m a bs) a bs.length = bs := by
  induction bs generalizing m a with
  | nil => rfl
  | cons b r ih =>
    simp only [List.length_cons] at ha
    rw [Memory.writeBytes, List.length_cons, Memory.readBytes, ih (writeByte_wf b hw (by omega)) (by omega),
      readByte_writeBytes_outside _ _ (by omega), readByte_writeByte_same a b hw]

@[simp] theorem readBytes_length (m : List Host.Cell) (a n : Nat) : (Memory.readBytes m a n).length = n := by
  induction n generalizing a with
  | zero => rfl
  | succ n ih => simp [Memory.readBytes, ih]

@[simp] theorem splitBytes_length (d : BitVec 64) (n : Nat) : (splitBytes d n).length = n := by
  induction n with
  | zero => rfl
  | succ n ih => simp [splitBytes, ih]

/-! ## Stores to physical memory -/

theorem storeBytes_readByte_outside (pa : PAddr) (bs : List Byte) (s : State) {c : Nat}
    (h : c < pa.toNat ∨ pa.toNat + bs.length ≤ c) :
    Memory.readByte (storeBytes pa bs s).mem c = Memory.readByte s.mem c :=
  readByte_writeBytes_outside s.mem bs h

theorem storeBytes_wf (pa : PAddr) (bs : List Byte) {s : State} (hw : Memory.wf s.mem = true)
    (ha : pa.toNat + bs.length ≤ 2 ^ 36) : Memory.wf (storeBytes pa bs s).mem = true := writeBytes_wf bs hw ha

/-- Memory right after reset is canonical. -/
theorem reset_mem_wf : Memory.wf State.reset.mem = true := rfl

end Sys2Proof.Machine
end

