-- ==== Sys2Proof/Laws/Results.lean ====
section
/-! SUPPORT. What the shared operations that end an instruction can do: one lemma for each. -/

namespace Sys2Proof.Machine

/-! ## Results -/

theorem andThen_eq_ok {α β : Type} {x : Res α} {f : α → State → Res β} {b : β} {t : State} :
    andThen x f = .ok b t ↔ ∃ a u, x = .ok a u ∧ f a u = .ok b t := by
  cases x <;> simp [andThen]

theorem andThen_eq_trap {α β : Type} {x : Res α} {f : α → State → Res β} {tt : TrapType} {t : State} :
    andThen x f = .trap tt t ↔ x = .trap tt t ∨ ∃ a u, x = .ok a u ∧ f a u = .trap tt t := by
  cases x <;> simp [andThen]

@[simp] theorem andThen_ok {α β : Type} (a : α) (s : State) (f : α → State → Res β) : andThen (.ok a s) f = f a s := rfl

@[simp] theorem andThen_trap {α β : Type} (tt : TrapType) (s : State) (f : α → State → Res β) :
    andThen (.trap tt s) f = .trap tt s := rfl

@[simp] theorem finish_ok (s t : State) : finish s (.ok () t) = .next t := rfl

@[simp] theorem finish_trap (tt : TrapType) (s t : State) : finish s (.trap tt t) = .next (takeTrapWith tt s t) := rfl

/-- An instruction that ends in a next state has completed or taken a trap. -/
theorem finish_eq_next {s t : State} {x : Res Unit} :
    finish s x = .next t ↔ x = .ok () t ∨ ∃ tt u, x = .trap tt u ∧ t = takeTrapWith tt s u := by
  cases x <;> simp [finish, eq_comm]

/-! ## Traps -/

/-- With ET = 1 a trap is taken in the state that its cause has left. -/
theorem takeTrapWith_of_et {s : State} (h : s.psr.et = true) (tt : TrapType) (t : State) :
    takeTrapWith tt s t = takeTrap tt t := by
  simp [takeTrapWith, h]

/-- With ET = 0 nothing the cause has recorded is kept. -/
theorem takeTrapWith_of_not_et {s : State} (h : s.psr.et = false) (tt : TrapType) (t : State) :
    takeTrapWith tt s t = takeTrap tt s := by
  simp [takeTrapWith, h]

/-- The entry into error mode. -/
theorem takeTrap_of_not_et {s : State} (h : s.psr.et = false) (tt : TrapType) :
    takeTrap tt s = { s with tbr := { s.tbr with tt := tt }, errorMode := true, trapped := true } := by
  simp [takeTrap, h]

/-- The entry into a trap handler. -/
theorem takeTrap_of_et {s : State} (h : s.psr.et = true) (tt : TrapType) :
    takeTrap tt s =
      { writeRegIn (s.psr.cwp - 1) 18 s.npc (writeRegIn (s.psr.cwp - 1) 17 s.pc s) with
        psr := { s.psr with et := false, ps := s.psr.s, s := true, cwp := s.psr.cwp - 1 }
        tbr := { s.tbr with tt := tt }
        pc := trapVector { s.tbr with tt := tt }
        npc := trapVector { s.tbr with tt := tt } + 4
        condTaken := false
        trapped := true } := by
  simp [takeTrap, h]

@[simp] theorem takeTrapWith_trapped (tt : TrapType) (s t : State) : (takeTrapWith tt s t).trapped = true := by
  simp [takeTrapWith]

/-! ## Transfers -/

/-- A taken transfer writes the program counters and the model's own fields alone. -/
theorem transfer_only (c : Bool) (pc npc : Word) (s : State) :
    transfer c pc npc s =
      { s with
        pc := (transfer c pc npc s).pc
        npc := (transfer c pc npc s).npc
        condTaken := c
        fresh := (transfer c pc npc s).fresh } := by
  unfold transfer; split_ifs <;> rfl

theorem transfer_of_not_condTaken {s : State} (h : s.condTaken = false) (c : Bool) (pc npc : Word) :
    transfer c pc npc s = { s with pc := pc, npc := npc, condTaken := c } := by
  simp [transfer, h]

/-- A word that ends in two zero bits is a word address. -/
theorem extract_low_append (w : BitVec 30) : (w ++ 0#2).extractLsb' 0 2 = 0 := by
  apply BitVec.eq_of_getLsbD_eq
  intro i hi
  rw [BitVec.getLsbD_extractLsb', BitVec.getLsbD_append]
  simp [hi]

theorem freePc_aligned (s : State) : (freePc s).extractLsb' 0 2 = 0 := extract_low_append _

/-! ## Gates -/

theorem privileged_of_user {s : State} (h : s.psr.s = false) (body : Result) :
    privileged s body = .next (takeTrap ttPrivileged s) := by
  simp [privileged, h]

theorem privileged_of_supervisor {s : State} (h : s.psr.s = true) (body : Result) : privileged s body = body := by
  simp [privileged, h]

theorem alternate_of_user {s : State} (h : s.psr.s = false) (i : Bool) (body : Result) :
    alternate i s body = .next (takeTrap ttPrivileged s) := by
  simp [alternate, h]

theorem alternate_of_immediate {s : State} (h : s.psr.s = true) (body : Result) :
    alternate true s body = .next (takeTrap ttIllegal s) := by
  simp [alternate, h]

theorem alternate_of_supervisor {s : State} (h : s.psr.s = true) (body : Result) : alternate false s body = body := by
  simp [alternate, h]

/-- An operate or a branch on fcc answers its body only when the FPU is on and has nothing pending. -/
theorem fpGate_of_ready {s : State} (he : s.psr.ef = true) (hm : s.fpMode = .execute) (body : Result) :
    fpGate s body = body := by
  simp [fpGate, he, hm]

theorem fpGate_of_disabled {s : State} (he : s.psr.ef = false) (body : Result) :
    fpGate s body = .next (takeTrap ttFpDisabled s) := by
  simp [fpGate, he]

/-- R553: masked exceptions accumulate. -/
theorem deliver_of_masked {s : State} {exc : BitVec 5} (h : exc &&& s.fsr.tem = 0) (i : Instr) (w : State → State) :
    deliver i exc w s =
      { w s with fsr := { (w s).fsr with cexc := exc, aexc := (w s).fsr.aexc ||| exc, ftt := 0 } } := by
  simp only [deliver, if_pos h]

/-- R553: an enabled exception queues the operate. -/
theorem deliver_of_enabled {s : State} {exc : BitVec 5} (h : exc &&& s.fsr.tem ≠ 0) (i : Instr) (w : State → State) :
    deliver i exc w s = enqueue i { s with fsr := { s.fsr with cexc := firstExc (exc &&& s.fsr.tem), ftt := 1 } } := by
  simp only [deliver, if_neg h]

end Sys2Proof.Machine
end

