-- ==== Sys2Proof/Laws/Translation.lean ====
section
/-! SUPPORT. What a translation can do: it changes the MMU, the PTE of its walk, the free-value counter and what a breakpoint
makes pending, keeps memory canonical and keeps the place within the page. -/

namespace Sys2Proof.Machine

/-- When a breakpoint matches: bit by bit, for either sense of the mask (R725, log 49). -/
theorem breakMatch_iff (a : Word) (m : Monitor) : breakMatch a m = true ↔
    ∀ k < 32, m.bkm.getLsbD k = Config.breakMaskCompares → a.getLsbD k = m.bkv.getLsbD k := by
  unfold breakMatch
  rw [beq_iff_eq]
  constructor
  · intro h k hk hm
    have e := congrArg (fun x : BitVec 32 => x.getLsbD k) h
    cases hc : Config.breakMaskCompares <;> simp [hc, hk] at e hm <;> by_contra h2 <;> simp_all
  · intro h
    apply BitVec.eq_of_getLsbD_eq
    intro k hk
    have e := h k hk
    cases hc : Config.breakMaskCompares <;> simp [hc, hk] at e ⊢ <;> intro h1 <;> (by_contra h2; simp_all)

/-- `u` is `s` after accesses of the MMU: its TLBs, pointer caches and fault registers, and page table entries, may have
changed. -/
structure Translated (s u : State) : Prop where
  only : u = { s with mmu := u.mmu, mem := u.mem, stale := u.stale, fresh := u.fresh }
  cntl : u.mmu.cntl = s.mmu.cntl
  ctp : u.mmu.ctp = s.mmu.ctp
  ctx : u.mmu.ctx = s.mmu.ctx
  wf : Memory.wf s.mem = true → Memory.wf u.mem = true

namespace Translated

theorem refl (s : State) : Translated s s := ⟨rfl, rfl, rfl, rfl, id⟩

theorem trans {s u v : State} (h : Translated s u) (g : Translated u v) : Translated s v where
  only := by rw [g.only]; conv_lhs => rw [h.only]
  cntl := g.cntl.trans h.cntl
  ctp := g.ctp.trans h.ctp
  ctx := g.ctx.trans h.ctx
  wf := g.wf ∘ h.wf

/-- The monitor is as it was. -/
theorem mon {s u : State} (h : Translated s u) : u.mon = s.mon := by rw [h.only]

end Translated

/-- `u` is `s` after accesses of the MMU, with events that a breakpoint enabled in ACTION may have made pending. -/
structure Reached (s u : State) : Prop where
  only : u = { s with mmu := u.mmu, mem := u.mem, stale := u.stale, fresh := u.fresh, mon := u.mon }
  cntl : u.mmu.cntl = s.mmu.cntl
  ctp : u.mmu.ctp = s.mmu.ctp
  ctx : u.mmu.ctx = s.mmu.ctx
  wf : Memory.wf s.mem = true → Memory.wf u.mem = true
  mon : u.mon = { s.mon with pendC := u.mon.pendC, pendD := u.mon.pendD }
  pendC : u.mon.pendC = true → s.mon.pendC = true ∨ intC s.mon.action = true
  pendD : u.mon.pendD = true → s.mon.pendD = true ∨ intD s.mon.action = true

theorem Translated.reached {s u : State} (h : Translated s u) : Reached s u where
  only := by conv_lhs => rw [h.only]
             rw [h.mon]
  cntl := h.cntl
  ctp := h.ctp
  ctx := h.ctx
  wf := h.wf
  mon := by rw [h.mon]
  pendC e := .inl (h.mon ▸ e)
  pendD e := .inl (h.mon ▸ e)

theorem Reached.refl (s : State) : Reached s s := (Translated.refl s).reached

theorem Reached.trans {s u v : State} (h : Reached s u) (g : Reached u v) : Reached s v where
  only := by rw [g.only]; conv_lhs => rw [h.only]
  cntl := g.cntl.trans h.cntl
  ctp := g.ctp.trans h.ctp
  ctx := g.ctx.trans h.ctx
  wf := g.wf ∘ h.wf
  mon := by rw [g.mon]; conv_lhs => rw [h.mon]
  pendC e := (g.pendC e).elim h.pendC fun i => .inr (by rw [h.mon] at i; exact i)
  pendD e := (g.pendD e).elim h.pendD fun i => .inr (by rw [h.mon] at i; exact i)

/-! ## Pieces -/

theorem translated_drawn (s : State) : Translated s (drawn s) := ⟨rfl, rfl, rfl, rfl, id⟩

theorem translated_cachePointers (data : Bool) (va : Word) (w : Walk) (s : State) :
    Translated s (cachePointers data va w s) := by
  unfold cachePointers
  split <;> split
  all_goals first
    | exact ⟨rfl, rfl, rfl, rfl, id⟩
    | (split_ifs <;> exact ⟨rfl, rfl, rfl, rfl, id⟩)

theorem translated_fillTlb {data : Bool} {va : Word} {level : BitVec 2} {pte : Word} {s u : State}
    (h : fillTlb data va level pte s = some u) : Translated s u := by
  unfold fillTlb at h
  cases data <;> simp only [Bool.false_eq_true, if_false, if_true, Option.map_eq_some_iff] at h <;>
    obtain ⟨i, -, rfl⟩ := h <;> exact ⟨rfl, rfl, rfl, rfl, id⟩

theorem translated_recordFault (data : Bool) (q : Request) (ft : BitVec 3) (l : BitVec 2) (s : State) :
    Translated s (recordFault data q ft l s) := ⟨rfl, rfl, rfl, rfl, id⟩

theorem translated_writePte {addr : PAddr} (h : addr.toNat % 4 = 0) (old new : Word) (s : State) :
    Translated s (writePte addr old new s) := by
  unfold writePte
  split_ifs
  · exact .refl s
  · refine ⟨rfl, rfl, rfl, rfl, fun hw => storeBytes_wf addr _ hw ?_⟩
    have := addr.isLt
    simp only [splitBytes_length]
    omega

theorem translated_recordBreak (data : Bool) (q : Request) (s : State) : Translated s (recordBreak data q s) :=
  translated_recordFault ..

theorem reached_requestCode (s : State) : Reached s (requestCode s) :=
  ⟨rfl, rfl, rfl, rfl, id, rfl, fun h => by simp only [requestCode, Bool.or_eq_true, Bool.and_eq_true] at h; tauto, .inl⟩

theorem reached_requestData (s : State) : Reached s (requestData s) :=
  ⟨rfl, rfl, rfl, rfl, id, rfl, .inl, fun h => by simp only [requestData, Bool.or_eq_true, Bool.and_eq_true] at h; tauto⟩

/-! ## Where table entries stand -/

theorem toNat_append_zeros {n : Nat} (w : BitVec n) : (w ++ 0#2).toNat % 4 = 0 := by
  rw [BitVec.toNat_append]
  simp [Nat.shiftLeft_eq]

theorem entryAddr_aligned (level : BitVec 2) (ptp va : Word) : (entryAddr level ptp va).toNat % 4 = 0 := by
  unfold entryAddr
  split_ifs <;> exact toNat_append_zeros _

theorem rootEntry_aligned (s : State) : (rootEntry s).addr.toNat % 4 = 0 := by
  have h1 : (s.mmu.ctp ++ 0#6).toNat = s.mmu.ctp.toNat * 64 := by
    rw [BitVec.toNat_append]; simp [Nat.shiftLeft_eq]
  have h2 : (s.mmu.ctx.setWidth 36 <<< 2).toNat = s.mmu.ctx.toNat * 4 := by
    have := s.mmu.ctx.isLt
    rw [BitVec.toNat_shiftLeft, BitVec.toNat_setWidth, Nat.shiftLeft_eq]
    omega
  show ((s.mmu.ctp ++ 0#6) + (s.mmu.ctx.setWidth 36 <<< 2) : PAddr).toNat % 4 = 0
  rw [BitVec.toNat_add, h1, h2]
  omega

theorem descend_aligned (m : List Host.Cell) (va : Word) (f : Fetched) (levels : List (BitVec 2))
    (h : f.addr.toNat % 4 = 0) : ∀ g ∈ descend m va f levels, g.addr.toNat % 4 = 0 := by
  induction levels generalizing f with
  | nil => simpa [descend] using h
  | cons n rest ih =>
    unfold descend
    split_ifs
    · intro g hg
      rcases List.mem_cons.mp hg with rfl | hg
      · exact h
      · exact ih _ (entryAddr_aligned n f.entry va) g hg
    · simpa using h

theorem walkFrom_aligned (m : List Host.Cell) (va : Word) (cached : Bool) (f : Fetched) (levels : List (BitVec 2))
    (h : f.addr.toNat % 4 = 0) : (walkFrom m va cached f levels).last.addr.toNat % 4 = 0 := by
  rcases List.mem_cons.mp (List.getLastD_mem_cons : (descend m va f levels).getLastD f ∈ _) with e | e
  · exact (congrArg (fun g : Fetched => g.addr.toNat % 4) e).trans h
  · exact descend_aligned m va f levels h _ e

/-- The PTE a walk ends at stands at a word address. -/
theorem walk_aligned (data : Bool) (va : Word) (s : State) : (walk data va s).last.addr.toNat % 4 = 0 := by
  unfold walk
  split
  · exact walkFrom_aligned _ _ _ _ _ rfl
  · split_ifs
    · exact walkFrom_aligned _ _ _ _ _ rfl
    · exact walkFrom_aligned _ _ _ _ _ (rootEntry_aligned s)

/-! ## Translation -/

/-- The state a translation ends in. -/
def Xlat.After (P : State → Prop) : Xlat → Prop
  | .ok _ s => P s
  | .mmuFault _ _ s => P s
  | .deadlock => True

theorem translated_miss (data : Bool) (q : Request) (s : State) :
    (translateMiss data q s).After (Translated s) := by
  have h1 : Translated s (cachePointers data q.va (walk data q.va s) (drawn s)) :=
    (translated_drawn s).trans (translated_cachePointers _ _ _ _)
  unfold translateMiss
  by_cases hn : noVictim data s = true
  · rw [if_pos hn]; trivial
  rw [if_neg hn]
  simp only
  split
  · exact h1
  · split_ifs
    · split
      · trivial
      · rename_i hf
        exact (h1.trans (translated_writePte (walk_aligned data q.va s) _ _ _)).trans (translated_fillTlb hf)
    · exact h1

theorem translated_setModified (i : Fin 64) (q : Request) (s : State) :
    (setModified i q s).After (Translated s) := by
  have h1 : Translated s (cachePointers true q.va (walk true q.va s) (drawn s)) :=
    (translated_drawn s).trans (translated_cachePointers _ _ _ _)
  unfold setModified
  simp only
  split
  · exact h1
  · exact (h1.trans (translated_writePte (walk_aligned true q.va s) _ _ _)).trans ⟨rfl, rfl, rfl, rfl, id⟩

/-- What a data translation can change. -/
theorem translated_data (q : Request) (s : State) : (translateData q s).After (Translated s) := by
  unfold translateData
  split
  · exact translated_miss true q s
  · simp only
    split_ifs
    · exact translated_setModified _ q s
    · exact .refl s
    · exact .refl s
  · exact translated_drawn s

/-- What the translation of a fetch can change. -/
theorem translated_fetch (q : Request) (s : State) : (translateFetch q s).After (Translated s) := by
  unfold translateFetch
  split
  · exact translated_miss false q s
  · simp only
    split_ifs
    · exact .refl s
    · exact .refl s
  · exact translated_drawn s

/-! ## Which side a translation works on -/

/-- The TLB and the level-2 pointers of the other side, and the fault registers, are as they were. -/
structure OneSide (data : Bool) (s u : State) : Prop where
  instr : data = true → u.mmu.itlb = s.mmu.itlb ∧ u.mmu.iptp2 = s.mmu.iptp2
  data : data = false → u.mmu.dtlb = s.mmu.dtlb ∧ u.mmu.dptp2 = s.mmu.dptp2
  fsr : u.mmu.fsr = s.mmu.fsr
  far : u.mmu.far = s.mmu.far

/-- Memory, what fetches may see of it, and both TLBs are as they were. -/
structure Unwritten (s u : State) : Prop where
  mem : u.mem = s.mem
  stale : u.stale = s.stale
  dtlb : u.mmu.dtlb = s.mmu.dtlb
  itlb : u.mmu.itlb = s.mmu.itlb

/-- Memory, and what fetches may see of it, are as they were but for one PTE at `a`. -/
def PteWritten (a : PAddr) (s u : State) : Prop :=
  ∃ old new, u.mem = (writePte a old new s).mem ∧ u.stale = (writePte a old new s).stale

/-- How a translation on a side ends: one with a target may have written the PTE of its walk, and a fault writes nothing. -/
def Xlat.Ends (data : Bool) (va : Word) (s : State) : Xlat → Prop
  | .ok _ u => OneSide data s u ∧ PteWritten (walk data va s).last.addr s u
  | .mmuFault _ _ u => OneSide data s u ∧ Unwritten s u
  | .deadlock => True

theorem OneSide.refl (data : Bool) (s : State) : OneSide data s s := ⟨fun _ => ⟨rfl, rfl⟩, fun _ => ⟨rfl, rfl⟩, rfl, rfl⟩

theorem OneSide.trans {data : Bool} {s u v : State} (h : OneSide data s u) (g : OneSide data u v) : OneSide data s v where
  instr e := ⟨(g.instr e).1.trans (h.instr e).1, (g.instr e).2.trans (h.instr e).2⟩
  data e := ⟨(g.data e).1.trans (h.data e).1, (g.data e).2.trans (h.data e).2⟩
  fsr := g.fsr.trans h.fsr
  far := g.far.trans h.far

theorem PteWritten.refl (a : PAddr) (s : State) : PteWritten a s s := ⟨0, 0, by simp [writePte], by simp [writePte]⟩

/-- The pointers a walk caches are those of its side, and nothing is written. -/
theorem oneSide_cachePointers (data : Bool) (va : Word) (w : Walk) (s : State) :
    OneSide data s (cachePointers data va w s) ∧ Unwritten s (cachePointers data va w s) := by
  unfold cachePointers
  cases data <;> split <;> split <;>
    exact ⟨⟨fun h => by cases h <;> exact ⟨rfl, rfl⟩, fun h => by cases h <;> exact ⟨rfl, rfl⟩, rfl, rfl⟩, rfl, rfl, rfl, rfl⟩

/-- A fill changes the TLB of its side alone. -/
theorem oneSide_fillTlb {data : Bool} {va : Word} {level : BitVec 2} {pte : Word} {s u : State}
    (h : fillTlb data va level pte s = some u) : OneSide data s u ∧ u.mem = s.mem ∧ u.stale = s.stale := by
  unfold fillTlb at h
  cases data <;> simp only [Bool.false_eq_true, if_false, if_true, Option.map_eq_some_iff] at h <;>
    obtain ⟨i, -, rfl⟩ := h <;>
    exact ⟨⟨fun h => by cases h <;> exact ⟨rfl, rfl⟩, fun h => by cases h <;> exact ⟨rfl, rfl⟩, rfl, rfl⟩, rfl, rfl⟩

theorem oneSide_writePte (data : Bool) (a : PAddr) (old new : Word) (s : State) : OneSide data s (writePte a old new s) := by
  unfold writePte
  split_ifs
  · exact .refl data s
  · exact ⟨fun _ => ⟨rfl, rfl⟩, fun _ => ⟨rfl, rfl⟩, rfl, rfl⟩

/-- What a write of a PTE leaves depends on memory and on the list of replaced words alone. -/
theorem writePte_congr {s u : State} (hm : u.mem = s.mem) (hs : u.stale = s.stale) (a : PAddr) (old new : Word) :
    (writePte a old new u).mem = (writePte a old new s).mem ∧ (writePte a old new u).stale = (writePte a old new s).stale := by
  unfold writePte
  split_ifs <;> simp [storeBytes, hm, hs]

theorem ends_miss (data : Bool) (q : Request) (s : State) : (translateMiss data q s).Ends data q.va s := by
  obtain ⟨h1, h2⟩ := oneSide_cachePointers data q.va (walk data q.va s) (drawn s)
  have h1 : OneSide data s (cachePointers data q.va (walk data q.va s) (drawn s)) := ⟨h1.instr, h1.data, h1.fsr, h1.far⟩
  have h2 : Unwritten s (cachePointers data q.va (walk data q.va s) (drawn s)) := ⟨h2.mem, h2.stale, h2.dtlb, h2.itlb⟩
  unfold translateMiss
  by_cases hn : noVictim data s = true
  · rw [if_pos hn]; trivial
  rw [if_neg hn]
  simp only
  split
  · exact ⟨h1, h2⟩
  · split_ifs
    · split
      · trivial
      · rename_i hf
        obtain ⟨g, gm, gs⟩ := oneSide_fillTlb hf
        obtain ⟨wm, ws⟩ := writePte_congr h2.mem h2.stale (walk data q.va s).last.addr (walk data q.va s).last.entry
          (touched q.kind (walk data q.va s).last.entry)
        exact ⟨(h1.trans (oneSide_writePte ..)).trans g, _, _, gm.trans wm, gs.trans ws⟩
    · exact ⟨h1, h2⟩

theorem ends_setModified (i : Fin 64) (q : Request) (s : State) : (setModified i q s).Ends true q.va s := by
  obtain ⟨h1, h2⟩ := oneSide_cachePointers true q.va (walk true q.va s) (drawn s)
  have h1 : OneSide true s (cachePointers true q.va (walk true q.va s) (drawn s)) := ⟨h1.instr, h1.data, h1.fsr, h1.far⟩
  have h2 : Unwritten s (cachePointers true q.va (walk true q.va s) (drawn s)) := ⟨h2.mem, h2.stale, h2.dtlb, h2.itlb⟩
  unfold setModified
  simp only
  split
  · exact ⟨h1, h2⟩
  · obtain ⟨wm, ws⟩ := writePte_congr h2.mem h2.stale (walk true q.va s).last.addr (walk true q.va s).last.entry
      (touched .store (walk true q.va s).last.entry)
    have g := h1.trans (oneSide_writePte true (walk true q.va s).last.addr (walk true q.va s).last.entry
      (touched .store (walk true q.va s).last.entry) _)
    exact ⟨⟨g.instr, by simp, g.fsr, g.far⟩, _, _, wm, ws⟩

/-- How a data translation ends. -/
theorem ends_data (q : Request) (s : State) : (translateData q s).Ends true q.va s := by
  unfold translateData
  split
  · exact ends_miss true q s
  · simp only
    split_ifs
    · exact ends_setModified _ q s
    · exact ⟨.refl true s, .refl _ s⟩
    · exact ⟨.refl true s, rfl, rfl, rfl, rfl⟩
  · exact ⟨⟨fun _ => ⟨rfl, rfl⟩, fun _ => ⟨rfl, rfl⟩, rfl, rfl⟩, PteWritten.refl _ s⟩

/-- How the translation of a fetch ends. -/
theorem ends_fetch (q : Request) (s : State) : (translateFetch q s).Ends false q.va s := by
  unfold translateFetch
  split
  · exact ends_miss false q s
  · simp only
    split_ifs
    · exact ⟨.refl false s, .refl _ s⟩
    · exact ⟨.refl false s, rfl, rfl, rfl, rfl⟩
  · exact ⟨⟨fun _ => ⟨rfl, rfl⟩, fun _ => ⟨rfl, rfl⟩, rfl, rfl⟩, PteWritten.refl _ s⟩

/-- The state a result carries. -/
def Res.After {α : Type} (P : State → Prop) : Res α → Prop
  | .ok _ s => P s
  | .trap _ s => P s
  | .fault _ => True
  | .refused _ => True

/-- A translation followed by what a breakpoint does. -/
theorem reached_andThen {α β : Type} {x : Res α} {f : α → State → Res β} {s : State} (hx : x.After (Translated s))
    (hf : ∀ a u, (f a u).After (Reached u)) : (andThen x f).After (Reached s) := by
  cases x with
  | ok a u =>
    have h := hf a u
    show (f a u).After _
    cases hg : f a u with
    | ok b v => rw [hg] at h; exact (Translated.reached hx).trans h
    | trap tt v => rw [hg] at h; exact (Translated.reached hx).trans h
    | fault r => trivial
    | refused r => trivial
  | trap tt u => exact Translated.reached hx
  | fault r => trivial
  | refused r => trivial

/-- Everything the translation of a data access can do to the state. -/
theorem translated_dataPage (q : Request) (s : State) : (dataPage q s).After (Translated s) := by
  have h := translated_data q s
  unfold dataPage
  by_cases he : s.mmu.cntl.en = true
  · rw [if_pos he]
    split
    · rename_i hx; rw [hx] at h; exact h
    · trivial
    · rename_i hx
      rw [hx] at h
      simp only
      split_ifs <;> exact Translated.trans h (translated_recordFault ..)
  · rw [if_neg he]; exact Translated.refl s

/-- The same with the data breakpoint. -/
theorem reached_dataTarget (q : Request) (s : State) : (dataTarget q s).After (Reached s) := by
  refine reached_andThen (translated_dataPage q s) fun t u => ?_
  split_ifs
  · exact (translated_recordBreak ..).reached
  · exact reached_requestData u
  · exact Reached.refl u

/-- Everything the translation of a fetch can do to the state. -/
theorem translated_fetchPage (va : Word) (s : State) : (fetchPage va s).After (Translated s) := by
  unfold fetchPage
  by_cases he : s.mmu.cntl.en = true
  · have h := translated_fetch (fetchRequest va s) s
    rw [if_pos he]
    split
    · rename_i hx; rw [hx] at h; exact h
    · trivial
    · rename_i hx; rw [hx] at h; exact Translated.trans h (translated_recordFault ..)
  · rw [if_neg he]; exact Translated.refl s

/-- The same with the code breakpoint. -/
theorem reached_fetchTarget (s : State) : (fetchTarget s).After (Reached s) := by
  refine reached_andThen (translated_fetchPage s.pc s) fun t u => ?_
  split_ifs
  · exact (translated_recordBreak ..).reached
  · exact reached_requestCode u
  · exact Reached.refl u

/-- Everything the translation of an access to memory can do to the state. -/
theorem reached_memoryTarget (sp : Space) (kind : Access) (a : Word) (s : State) :
    (memoryTarget sp kind a s).After (Reached s) := by
  unfold memoryTarget
  split
  · exact reached_dataTarget _ s
  · exact Reached.refl s
  · exact Reached.refl s

end Sys2Proof.Machine
end

