-- ==== Sys2Proof/Laws/Access.lean ====
section
/-! SUPPORT. What the access primitives can answer, and that every one of them keeps memory canonical. -/

namespace Sys2Proof.Machine

/-! ## The place within the page -/

theorem append_mod {n m k : Nat} (hk : k ≤ m) (x : BitVec n) (y : BitVec m) :
    (x ++ y).toNat % 2 ^ k = y.toNat % 2 ^ k := by
  obtain ⟨j, rfl⟩ := Nat.exists_eq_add_of_le hk
  rw [BitVec.toNat_append, ← Nat.shiftLeft_add_eq_or_of_lt y.isLt, Nat.shiftLeft_eq, Nat.pow_add, ← Nat.mul_assoc,
    Nat.mul_right_comm, Nat.add_comm, Nat.add_mul_mod_self_right]

theorem extract_mod {n k : Nat} (hk : k ≤ n) (y : Word) : (y.extractLsb' 0 n).toNat % 2 ^ k = y.toNat % 2 ^ k := by
  rw [BitVec.extractLsb'_toNat, Nat.shiftRight_zero]
  exact Nat.mod_mod_of_dvd _ (Nat.pow_dvd_pow 2 hk)

/-- A page of any level keeps the low twelve bits of the address. -/
theorem physical_mod (level : BitVec 2) (ppn : BitVec 24) (va : Word) :
    (physical level ppn va).toNat % 2 ^ 12 = va.toNat % 2 ^ 12 := by
  unfold physical
  split_ifs
  · exact (append_mod (by decide) _ _).trans (extract_mod (by decide) va)
  · exact (append_mod (by decide) _ _).trans (extract_mod (by decide) va)
  · exact (append_mod (by decide) _ _).trans (extract_mod (by decide) va)
  · exact append_mod (by decide) _ _

/-- The target of a translation, if it has one. -/
def Xlat.Target (P : PAddr → Prop) : Xlat → Prop
  | .ok t _ => P t.pa
  | .mmuFault _ _ _ => True
  | .deadlock => True

/-- A data translation keeps the low twelve bits of the address. -/
theorem translateData_mod (q : Request) (s : State) :
    (translateData q s).Target fun p => p.toNat % 2 ^ 12 = q.va.toNat % 2 ^ 12 := by
  unfold translateData
  split
  · unfold translateMiss
    by_cases hn : noVictim true s = true
    · rw [if_pos hn]; trivial
    rw [if_neg hn]
    simp only
    split
    · trivial
    · split_ifs
      · split
        · trivial
        · exact physical_mod ..
      · trivial
  · simp only
    split_ifs
    · unfold setModified
      simp only
      split
      · trivial
      · exact physical_mod ..
    · exact physical_mod ..
    · trivial
  · exact (append_mod (by decide) _ _).trans (extract_mod (by decide) q.va)

/-- A data access that reaches its target has been translated, and no data breakpoint has stopped it. -/
theorem dataTarget_eq_ok {q : Request} {s u : State} {t : Option Target} :
    dataTarget q s = .ok t u ↔ ∃ v, dataPage q s = .ok t v ∧
      ((dataBreak (q.kind == .store) q.va v = false ∧ u = v) ∨
        (dataBreak (q.kind == .store) q.va v = true ∧ dataFaults v = false ∧ u = requestData v)) := by
  unfold dataTarget
  rw [andThen_eq_ok]
  constructor
  · rintro ⟨t', v, hp, h⟩
    split_ifs at h with hb hf <;> simp only [Res.ok.injEq] at h <;> obtain ⟨rfl, rfl⟩ := h
    · exact ⟨v, hp, .inr ⟨hb, by simpa using hf, rfl⟩⟩
    · exact ⟨v, hp, .inl ⟨by simpa using hb, rfl⟩⟩
  · rintro ⟨v, hp, ⟨hb, rfl⟩ | ⟨hb, hf, rfl⟩⟩
    · exact ⟨t, u, hp, by simp [hb]⟩
    · exact ⟨t, v, hp, by simp [hb, hf]⟩

/-- With no data breakpoint enabled an access goes where its page is. -/
theorem dataTarget_eq_dataPage {q : Request} {s : State} (h : ∀ st : Bool, s.mon.bkc.getLsbD (if st then 0 else 1) = false) :
    dataTarget q s = dataPage q s := by
  have c := translated_dataPage q s
  unfold dataTarget
  cases e : dataPage q s with
  | ok t u =>
    rw [e] at c
    have hm : u.mon = s.mon := Translated.mon c
    have hb : dataBreak (q.kind == .store) q.va u = false := by rw [dataBreak, hm, h, Bool.false_and]
    simp [hb]
  | trap tt u => rfl
  | fault r => rfl
  | refused r => rfl

theorem dataTarget_mod {q : Request} {s u : State} {p : Target} (h : dataTarget q s = .ok (some p) u) :
    p.pa.toNat % 2 ^ 12 = q.va.toNat % 2 ^ 12 := by
  have g := translateData_mod q s
  obtain ⟨v, h, -⟩ := dataTarget_eq_ok.mp h
  unfold dataPage at h
  by_cases he : s.mmu.cntl.en = true
  · rw [if_pos he] at h
    split at h
    · rename_i hx
      rw [hx] at g
      simp only [Res.ok.injEq, Option.some.injEq] at h
      rw [← h.1]
      exact g
    · simp at h
    · simp only at h
      split at h <;> simp at h
  · rw [if_neg he] at h
    simp only [Res.ok.injEq, Option.some.injEq] at h
    rw [← h.1]
    exact append_mod (by decide) _ _

/-- The target of an access to memory keeps the low twelve bits of its address. -/
theorem memoryTarget_mod {sp : Space} {kind : Access} {a : Word} {s u : State} {p : Target}
    (h : memoryTarget sp kind a s = .ok (some p) u) : p.pa.toNat % 2 ^ 12 = a.toNat % 2 ^ 12 := by
  unfold memoryTarget at h
  split at h
  · exact dataTarget_mod h
  · simp only [Res.ok.injEq, Option.some.injEq] at h
    rw [← h.1]
    exact append_mod (by decide) _ _
  · simp at h

/-- An aligned datum lies within the physical address space. -/
theorem target_fits {sp : Space} {kind : Access} {w : Width} {a : Word} {s u : State} {p : Target}
    (ha : aligned w a = true) (h : memoryTarget sp kind a s = .ok (some p) u) : p.pa.toNat + bytesOf w ≤ 2 ^ 36 := by
  have hm := memoryTarget_mod h
  have hp := p.pa.isLt
  have ha : a.toNat % bytesOf w = 0 := by simpa [aligned] using ha
  cases w <;> simp only [bytesOf] at ha ⊢ <;> omega

/-! ## The address spaces that are not memory -/

/-- `u` is `s` with changes in the MMU, what is known of the caches and the monitor. -/
structure Controlled (s u : State) : Prop where
  only : u =
    { s with
      mmu := u.mmu, dtags := u.dtags, icacheCleared := u.icacheCleared, mon := u.mon, fresh := u.fresh,
      wroteA := u.wroteA, wroteB := u.wroteB }

theorem controlled_wordRes {s : State} {x : Res Word} (h : x.After (Controlled s)) :
    (wordRes x).After (Controlled s) := by
  cases x <;> exact h

theorem controlled_onlyWord {α : Type} {s : State} {w : Width} {x : Res α} (h : x.After (Controlled s)) :
    (onlyWord w x).After (Controlled s) := by
  unfold onlyWord; split_ifs
  · exact h
  · trivial

theorem controlled_onlyDword {α : Type} {s : State} {w : Width} {x : Res α} (h : x.After (Controlled s)) :
    (onlyDword w x).After (Controlled s) := by
  unfold onlyDword; split_ifs
  · exact h
  · trivial

theorem controlled_probeFill (va : Word) (s : State) : Controlled s (probeFill va s) := by
  unfold probeFill cachePointers fillTlb
  simp only [if_true]
  split_ifs
  · split <;> split <;> (rcases Option.eq_none_or_eq_some (victim _ _) with e | ⟨i, e⟩ <;> rw [e] <;> exact ⟨rfl⟩)
  · exact ⟨rfl⟩

theorem controlled_probe (a : Word) (s : State) : (probeMmu a s).After (Controlled s) := by
  unfold probeMmu
  simp only
  split_ifs
  · exact (⟨rfl⟩ : Controlled s s)
  · exact controlled_probeFill a s
  · exact (⟨rfl⟩ : Controlled s s)

theorem controlled_loadTlb (data : Bool) (a : Word) (s : State) : (loadTlb data a s).After (Controlled s) := by
  unfold loadTlb
  split <;> first | exact (⟨rfl⟩ : Controlled s s) | trivial

theorem controlled_setEntry (data : Bool) (a : Word) (e : TlbEntry) (s : State) : Controlled s (setEntry data a e s) := by
  unfold setEntry
  cases data <;> exact ⟨rfl⟩

/-- Everything a store of a TLB entry can answer: it is done, unless that would lock the whole TLB (R876). -/
theorem storeEntry_eq_ok {data : Bool} {a : Word} {e : TlbEntry} {s t : State} :
    storeEntry data a e s = .ok () t ↔ sideLocked data t = false ∧ t = setEntry data a e s := by
  unfold storeEntry
  by_cases h : sideLocked data (setEntry data a e s) = true
  · rw [if_pos h]
    exact ⟨fun g => by simp at g, fun ⟨g, e⟩ => by rw [e, h] at g; simp at g⟩
  · rw [if_neg h]
    simp only [Bool.not_eq_true] at h
    exact ⟨fun g => by simp only [Res.ok.injEq, true_and] at g; exact ⟨g ▸ h, g.symm⟩, fun ⟨_, g⟩ => by rw [g]⟩

/-- The context register keeps what it holds. -/
@[simp] theorem contextNumber_contextNumber (v : Word) : contextNumber (contextNumber v) = contextNumber v := by
  simp [contextNumber, BitVec.and_assoc]

theorem controlled_storeEntry (data : Bool) (a : Word) (e : TlbEntry) (s : State) :
    (storeEntry data a e s).After (Controlled s) := by
  unfold storeEntry
  by_cases h : sideLocked data (setEntry data a e s) = true
  · rw [if_pos h]; trivial
  · rw [if_neg h]; exact controlled_setEntry data a e s

theorem controlled_storeTlb (data : Bool) (a v : Word) (s : State) : (storeTlb data a v s).After (Controlled s) := by
  unfold storeTlb setPtp2
  split
  all_goals first
    | trivial
    | exact ⟨rfl⟩
    | exact controlled_storeEntry ..
    | (cases data <;> simp only [Bool.false_eq_true, if_false, if_true] <;> split_ifs <;> first | exact ⟨rfl⟩ | trivial)
    | (cases data <;> exact ⟨rfl⟩)

theorem controlled_loadRegister (a : Word) (s : State) : (loadMmuRegister a s).After (Controlled s) := by
  unfold loadMmuRegister
  split <;> first | exact ⟨rfl⟩ | trivial

theorem controlled_storeRegister (a v : Word) (s : State) : (storeMmuRegister a v s).After (Controlled s) := by
  unfold storeMmuRegister writeMcntl
  simp only
  split
  all_goals first
    | exact ⟨rfl⟩
    | trivial
    | (split_ifs <;> first | exact ⟨rfl⟩ | trivial)

/-- Everything a load in such a space can do to the state. -/
theorem controlled_loadAsi (asi : Asi) (w : Width) (a : Word) (s : State) :
    (loadAsi asi w a s).After (Controlled s) := by
  have r : Controlled s s := ⟨rfl⟩
  unfold loadAsi
  split
  all_goals first
    | exact controlled_onlyWord (controlled_wordRes (controlled_probe a s))
    | exact controlled_onlyWord (controlled_wordRes (controlled_loadRegister a s))
    | exact controlled_onlyWord (controlled_wordRes (controlled_loadTlb _ a s))
    | trivial
    | exact r
    | (apply controlled_onlyWord; exact r)
    | (apply controlled_onlyDword; exact r)
    | (apply controlled_onlyWord; split_ifs <;> exact ⟨rfl⟩)
    | (apply controlled_onlyDword; unfold loadDtag; split_ifs <;> exact ⟨rfl⟩)
    | (apply controlled_onlyDword; unfold loadBreakpoint; split <;> first | exact r | trivial)
    | (apply controlled_onlyWord; exact ⟨rfl⟩)

/-- A flash clear resets the valid bit of every line. -/
@[simp] theorem dcacheCleared_flashClear (s : State) : dcacheCleared (flashClear s) = true := by
  simp [dcacheCleared, flashClear, mapVec]

theorem controlled_flashClear (s : State) : Controlled s (flashClear s) := by
  unfold flashClear
  generalize mapVec _ s.dtags = d
  exact ⟨rfl⟩

/-- Everything a store in such a space can do to the state. -/
theorem controlled_storeAsi (asi : Asi) (w : Width) (a : Word) (d : BitVec 64) (s : State) :
    (storeAsi asi w a d s).After (Controlled s) := by
  have r : Controlled s s := ⟨rfl⟩
  have f := controlled_flashClear s
  unfold storeAsi
  simp only
  generalize flashClear s = u at f ⊢
  split
  all_goals first
    | exact controlled_onlyWord (controlled_storeRegister a _ s)
    | exact controlled_onlyWord (controlled_storeTlb _ a _ s)
    | exact controlled_onlyWord f
    | trivial
    | exact r
    | (apply controlled_onlyWord; exact ⟨rfl⟩)
    | (apply controlled_onlyDword; exact ⟨rfl⟩)
    | (apply controlled_onlyWord; unfold storeCtrc; simp only; split_ifs <;> first | exact ⟨rfl⟩ | trivial)
    | (apply controlled_onlyDword; unfold storeAction; simp only; split_ifs <;> first | exact ⟨rfl⟩ | trivial)
    | (apply controlled_onlyDword; unfold storeBreakpoint; split <;>
        first | exact ⟨rfl⟩ | trivial | (split_ifs <;> first | exact ⟨rfl⟩ | trivial))

/-! ## The access primitives -/

/-- Everything a completed read can be: of a register of the chip, of memory, or of an access whose fault is suppressed. -/
theorem memRead_eq_ok {asi : Asi} {w : Width} {k : DwordKind} {a : Word} {s t : State} {d : BitVec 64}
    (h : memRead asi w k a s = .ok d t) :
    aligned w a = true ∧
      ((spaceOf asi = .special ∧ loadAsi asi w a s = .ok d t) ∨
        (spaceOf asi ≠ .special ∧
          ((∃ p, memoryTarget (spaceOf asi) .load a s = .ok (some p) t ∧ d = readTarget w k p t) ∨
            ∃ u, memoryTarget (spaceOf asi) .load a s = .ok none u ∧ d = freeValue u ∧ t = drawn u))) := by
  unfold memRead at h
  split_ifs at h with ha
  refine ⟨ha, ?_⟩
  split at h
  · rename_i hs; exact .inl ⟨hs, h⟩
  · rename_i hs
    obtain ⟨p, u, hp, hu⟩ := andThen_eq_ok.mp h
    refine .inr ⟨fun e => hs e, ?_⟩
    cases p with
    | none => simp only [Res.ok.injEq] at hu; exact .inr ⟨u, hp, hu.1.symm, hu.2.symm⟩
    | some p =>
      simp only [Res.ok.injEq] at hu
      obtain ⟨rfl, rfl⟩ := hu
      exact .inl ⟨p, hp, rfl⟩

/-- Everything a completed write can be. -/
theorem memWrite_eq_ok {asi : Asi} {w : Width} {k : DwordKind} {a : Word} {d : BitVec 64} {s t : State}
    (h : memWrite asi w k a d s = .ok () t) :
    aligned w a = true ∧
      ((spaceOf asi = .special ∧ storeAsi asi w a d s = .ok () t) ∨
        (spaceOf asi ≠ .special ∧
          ((∃ p u, memoryTarget (spaceOf asi) .store a s = .ok (some p) u ∧ t = writeTarget w k p d u) ∨
            memoryTarget (spaceOf asi) .store a s = .ok none t))) := by
  unfold memWrite at h
  split_ifs at h with ha
  refine ⟨ha, ?_⟩
  split at h
  · rename_i hs; exact .inl ⟨hs, h⟩
  · rename_i hs
    obtain ⟨p, u, hp, hu⟩ := andThen_eq_ok.mp h
    refine .inr ⟨fun e => hs e, ?_⟩
    cases p with
    | none => simp only [Res.ok.injEq, true_and] at hu; subst hu; exact .inr hp
    | some p => simp only [Res.ok.injEq, true_and] at hu; exact .inl ⟨p, u, hp, hu.symm⟩

/-- Everything a completed atomic can be. -/
theorem memSwap_eq_ok {asi : Asi} {w : Width} {a : Word} {d e : BitVec 64} {s t : State}
    (h : memSwap asi w a d s = .ok e t) :
    aligned w a = true ∧ spaceOf asi ≠ .special ∧
      ((∃ p u, memoryTarget (spaceOf asi) .store a s = .ok (some p) u ∧ e = readTarget w .integer p u ∧
          t = writeTarget w .integer p d u) ∨
        ∃ u, memoryTarget (spaceOf asi) .store a s = .ok none u ∧ e = freeValue u ∧ t = drawn u) := by
  unfold memSwap at h
  by_cases ha : aligned w a = true
  swap
  · rw [if_neg ha] at h; simp at h
  rw [if_pos ha] at h
  refine ⟨ha, ?_⟩
  split at h
  · split at h <;> simp at h
  · rename_i hs
    obtain ⟨p, u, hp, hu⟩ := andThen_eq_ok.mp h
    refine ⟨fun e => hs e, ?_⟩
    cases p with
    | none => simp only [Res.ok.injEq] at hu; exact .inr ⟨u, hp, hu.1.symm, hu.2.symm⟩
    | some p => simp only [Res.ok.injEq] at hu; exact .inl ⟨p, u, hp, hu.1.symm, hu.2.symm⟩

@[simp] theorem orderBytes_length (l : Bool) (k : DwordKind) (bs : List Byte) :
    (orderBytes l k bs).length = bs.length := by
  unfold orderBytes
  split_ifs <;> simp only [List.length_append, List.length_reverse, List.length_take, List.length_drop]
  omega

theorem writeTarget_wf {sp : Space} {kind : Access} {w : Width} {a : Word} {s u : State} {p : Target}
    (ha : aligned w a = true) (h : memoryTarget sp kind a s = .ok (some p) u) (k : DwordKind) (d : BitVec 64)
    (hw : Memory.wf u.mem = true) : Memory.wf (writeTarget w k p d u).mem = true := by
  refine storeBytes_wf p.pa _ hw ?_
  rw [orderBytes_length, splitBytes_length]
  exact target_fits ha h

/-- R148, U12: a load at the physical address of an earlier store sees the bytes stored, whichever RBO bit each of the two has;
R149: the bits only choose the order of the bytes on the way in and on the way out. -/
theorem readTarget_writeTarget {p q : Target} {s : State} (hq : q.pa = p.pa) (w : Width) (k k' : DwordKind) (d : BitVec 64)
    (hw : Memory.wf s.mem = true) (hp : p.pa.toNat + bytesOf w ≤ 2 ^ 36) :
    readTarget w k' q (writeTarget w k p d s) =
      joinBytes (orderBytes (isLittle q s) k' (orderBytes (isLittle p s) k (splitBytes d (bytesOf w)))) := by
  have hl : (orderBytes (isLittle p s) k (splitBytes d (bytesOf w))).length = bytesOf w := by
    rw [orderBytes_length, splitBytes_length]
  have h := readBytes_writeBytes_same (orderBytes (isLittle p s) k (splitBytes d (bytesOf w))) hw (hl.symm ▸ hp)
  rw [hl] at h
  have hm : (writeTarget w k p d s).mem =
    Memory.writeBytes s.mem p.pa.toNat (orderBytes (isLittle p s) k (splitBytes d (bytesOf w))) := rfl
  unfold readTarget
  rw [hm, hq, h]
  rfl

/-- A completed read keeps memory canonical. -/
theorem memRead_wf {asi : Asi} {w : Width} {k : DwordKind} {a : Word} {s t : State} {d : BitVec 64}
    (hw : Memory.wf s.mem = true) (h : memRead asi w k a s = .ok d t) : Memory.wf t.mem = true := by
  obtain ⟨-, ⟨-, hl⟩ | ⟨-, ⟨p, hp, -⟩ | ⟨u, hu, -, rfl⟩⟩⟩ := memRead_eq_ok h
  · have c := controlled_loadAsi asi w a s
    rw [hl] at c
    rw [c.only]
    exact hw
  · have c := reached_memoryTarget (spaceOf asi) .load a s
    rw [hp] at c
    exact c.wf hw
  · have c := reached_memoryTarget (spaceOf asi) .load a s
    rw [hu] at c
    exact c.wf hw

/-- A completed write keeps memory canonical. -/
theorem memWrite_wf {asi : Asi} {w : Width} {k : DwordKind} {a : Word} {d : BitVec 64} {s t : State}
    (hw : Memory.wf s.mem = true) (h : memWrite asi w k a d s = .ok () t) : Memory.wf t.mem = true := by
  obtain ⟨ha, ⟨-, hl⟩ | ⟨-, ⟨p, u, hp, rfl⟩ | hu⟩⟩ := memWrite_eq_ok h
  · have c := controlled_storeAsi asi w a d s
    rw [hl] at c
    rw [c.only]
    exact hw
  · have c := reached_memoryTarget (spaceOf asi) .store a s
    rw [hp] at c
    exact writeTarget_wf ha hp k d (c.wf hw)
  · have c := reached_memoryTarget (spaceOf asi) .store a s
    rw [hu] at c
    exact c.wf hw

/-- A completed atomic keeps memory canonical. -/
theorem memSwap_wf {asi : Asi} {w : Width} {a : Word} {d e : BitVec 64} {s t : State}
    (hw : Memory.wf s.mem = true) (h : memSwap asi w a d s = .ok e t) : Memory.wf t.mem = true := by
  obtain ⟨ha, -, ⟨p, u, hp, -, rfl⟩ | ⟨u, hu, -, rfl⟩⟩ := memSwap_eq_ok h
  · have c := reached_memoryTarget (spaceOf asi) .store a s
    rw [hp] at c
    exact writeTarget_wf ha hp .integer d (c.wf hw)
  · have c := reached_memoryTarget (spaceOf asi) .store a s
    rw [hu] at c
    exact c.wf hw

end Sys2Proof.Machine
end

