-- ==== Sys2Proof/Laws/Step.lean ====
section
/-! SUPPORT. What one step can do. -/

namespace Sys2Proof.Machine

/-! ## The counters -/

/-- The counters touch the monitor and the free-value counter alone. -/
theorem count_only (old new : State) :
    count old new = { new with mon := (count old new).mon, fresh := (count old new).fresh } := by
  unfold count; simp only; split_ifs <;> rfl

@[simp] theorem count_globals (old new : State) : (count old new).globals = new.globals := by rw [count_only]
@[simp] theorem count_windows (old new : State) : (count old new).windows = new.windows := by rw [count_only]
@[simp] theorem count_pc (old new : State) : (count old new).pc = new.pc := by rw [count_only]
@[simp] theorem count_npc (old new : State) : (count old new).npc = new.npc := by rw [count_only]
@[simp] theorem count_psr (old new : State) : (count old new).psr = new.psr := by rw [count_only]
@[simp] theorem count_wim (old new : State) : (count old new).wim = new.wim := by rw [count_only]
@[simp] theorem count_tbr (old new : State) : (count old new).tbr = new.tbr := by rw [count_only]
@[simp] theorem count_y (old new : State) : (count old new).y = new.y := by rw [count_only]
@[simp] theorem count_f (old new : State) : (count old new).f = new.f := by rw [count_only]
@[simp] theorem count_fsr (old new : State) : (count old new).fsr = new.fsr := by rw [count_only]
@[simp] theorem count_fq (old new : State) : (count old new).fq = new.fq := by rw [count_only]
@[simp] theorem count_fpMode (old new : State) : (count old new).fpMode = new.fpMode := by rw [count_only]
@[simp] theorem count_mmu (old new : State) : (count old new).mmu = new.mmu := by rw [count_only]
@[simp] theorem count_dtags (old new : State) : (count old new).dtags = new.dtags := by rw [count_only]
@[simp] theorem count_icacheCleared (old new : State) : (count old new).icacheCleared = new.icacheCleared := by
  rw [count_only]
@[simp] theorem count_mem (old new : State) : (count old new).mem = new.mem := by rw [count_only]
@[simp] theorem count_stale (old new : State) : (count old new).stale = new.stale := by rw [count_only]
@[simp] theorem count_irl (old new : State) : (count old new).irl = new.irl := by rw [count_only]
@[simp] theorem count_errorMode (old new : State) : (count old new).errorMode = new.errorMode := by rw [count_only]
@[simp] theorem count_condTaken (old new : State) : (count old new).condTaken = new.condTaken := by rw [count_only]
@[simp] theorem count_trapped (old new : State) : (count old new).trapped = new.trapped := by rw [count_only]
@[simp] theorem count_wroteA (old new : State) : (count old new).wroteA = new.wroteA := by rw [count_only]
@[simp] theorem count_wroteB (old new : State) : (count old new).wroteB = new.wroteB := by rw [count_only]

/-- With no counter enabled a step leaves the monitor to its instruction. -/
theorem count_off {old : State} (ha : old.mon.ctrc.aen = false) (hb : old.mon.ctrc.ben = false) (new : State) :
    count old new = new := by
  simp [count, counting, ha, hb]

theorem counter_eq_next {old t : State} {r : Result} : counter old r = .next t ↔ ∃ u, r = .next u ∧ t = count old u := by
  cases r <;> simp [counter, eq_comm]

/-! ## The state an instruction runs in -/

@[simp] theorem beginStep_globals (s : State) : (beginStep s).globals = s.globals := rfl
@[simp] theorem beginStep_windows (s : State) : (beginStep s).windows = s.windows := rfl
@[simp] theorem beginStep_pc (s : State) : (beginStep s).pc = s.pc := rfl
@[simp] theorem beginStep_npc (s : State) : (beginStep s).npc = s.npc := rfl
@[simp] theorem beginStep_psr (s : State) : (beginStep s).psr = s.psr := rfl
@[simp] theorem beginStep_wim (s : State) : (beginStep s).wim = s.wim := rfl
@[simp] theorem beginStep_tbr (s : State) : (beginStep s).tbr = s.tbr := rfl
@[simp] theorem beginStep_y (s : State) : (beginStep s).y = s.y := rfl
@[simp] theorem beginStep_f (s : State) : (beginStep s).f = s.f := rfl
@[simp] theorem beginStep_fsr (s : State) : (beginStep s).fsr = s.fsr := rfl
@[simp] theorem beginStep_fq (s : State) : (beginStep s).fq = s.fq := rfl
@[simp] theorem beginStep_fpMode (s : State) : (beginStep s).fpMode = s.fpMode := rfl
@[simp] theorem beginStep_mmu (s : State) : (beginStep s).mmu = s.mmu := rfl
@[simp] theorem beginStep_dtags (s : State) : (beginStep s).dtags = s.dtags := rfl
@[simp] theorem beginStep_icacheCleared (s : State) : (beginStep s).icacheCleared = s.icacheCleared := rfl
@[simp] theorem beginStep_mon (s : State) : (beginStep s).mon = s.mon := rfl
@[simp] theorem beginStep_mem (s : State) : (beginStep s).mem = s.mem := rfl
@[simp] theorem beginStep_stale (s : State) : (beginStep s).stale = s.stale := rfl
@[simp] theorem beginStep_irl (s : State) : (beginStep s).irl = s.irl.tail := rfl
@[simp] theorem beginStep_errorMode (s : State) : (beginStep s).errorMode = s.errorMode := rfl
@[simp] theorem beginStep_fresh (s : State) : (beginStep s).fresh = s.fresh := rfl
@[simp] theorem beginStep_condTaken (s : State) : (beginStep s).condTaken = s.condTaken := rfl
@[simp] theorem beginStep_trapped (s : State) : (beginStep s).trapped = false := rfl
@[simp] theorem beginStep_wroteA (s : State) : (beginStep s).wroteA = false := rfl
@[simp] theorem beginStep_wroteB (s : State) : (beginStep s).wroteB = false := rfl

/-! ## The fetch -/

/-- A fetch changes nothing but the free-value counter. -/
theorem fetchWord_state (pa : PAddr) (s : State) : (fetchWord pa s).2 = s ∨ (fetchWord pa s).2 = drawn s := by
  unfold fetchWord
  split
  · exact .inl rfl
  · exact .inr rfl

/-! ## The step -/

/-- Everything the instruction at pc can lead to. -/
theorem runInstruction_eq_next {s t : State} (h : runInstruction s = .next t) :
    (∃ tt u, fetchTarget s = .trap tt u ∧ t = takeTrapWith tt s u) ∨
      ∃ pa u, fetchTarget s = .ok pa u ∧
        ((∃ i, decodeWord (fetchWord pa u).1 = .ok i ∧ exec i (fetchWord pa u).2 = .next t) ∨
          ∃ e, decodeWord (fetchWord pa u).1 = .error e ∧ t = takeTrapWith ttIllegal s (fetchWord pa u).2) := by
  unfold runInstruction at h
  split at h
  · rename_i tt u hf
    simp only [Host.Outcome.next.injEq] at h
    exact .inl ⟨tt, u, hf, h.symm⟩
  · simp at h
  · simp at h
  · rename_i pa u hf
    refine .inr ⟨pa, u, hf, ?_⟩
    split at h
    · rename_i i hd; exact .inl ⟨i, hd, h⟩
    · simp at h
    · rename_i e _ hd
      simp only [Host.Outcome.next.injEq] at h
      exact .inr ⟨e, hd, h.symm⟩

/-- Everything a step can be: an interrupt, or the instruction at pc. -/
theorem step_eq_next {s t : State} (h : step s = .next t) :
    s.errorMode = false ∧
      ((interrupted s = true ∧ t = interruptStep s) ∨
        ∃ u, runInstruction (beginStep s) = .next u ∧ t = count (beginStep s) u) := by
  unfold step runStep at h
  by_cases he : s.errorMode = true
  · rw [if_pos he] at h; simp at h
  rw [if_neg he] at h
  refine ⟨by simpa using he, ?_⟩
  simp only at h
  by_cases hi : interrupted s = true
  · rw [if_pos hi] at h
    split at h
    · rename_i u hu
      split at h
      · exact .inr (counter_eq_next.mp h)
      · simp only [Host.Outcome.next.injEq] at h
        exact .inl ⟨hi, h.symm⟩
    · simp only [Host.Outcome.next.injEq] at h
      exact .inl ⟨hi, h.symm⟩
  · rw [if_neg hi] at h
    exact .inr (counter_eq_next.mp h)

end Sys2Proof.Machine
end

