-- ==== Sys2Proof/Laws/Stale.lean ====
section
/-! SUPPORT. What a store leaves for fetches to see, and which word a fetch can return (R205, D12, log 4). -/

namespace Sys2Proof.Machine

open Sys2Proof.Spec

/-! ## Words and their bytes -/

theorem toNat_wordOf (pa : PAddr) : (pa.extractLsb' 2 34).toNat = pa.toNat / 4 := by
  have := pa.isLt
  rw [BitVec.extractLsb'_toNat, Nat.shiftRight_eq_div_pow]
  omega

theorem mem_byteRange {a n c : Nat} : c ∈ byteRange a n ↔ a ≤ c ∧ c < a + n := by
  simp only [byteRange, List.mem_map, List.mem_range]
  constructor
  · rintro ⟨i, h, rfl⟩; omega
  · rintro ⟨h1, h2⟩; exact ⟨c - a, by omega, by omega⟩

/-- Some byte of the word `w` is one of those bytes. -/
theorem word_meets {w : BitVec 34} {a n : Nat} :
    (∃ k < 4, 4 * w.toNat + k ∈ byteRange a n) ↔ a < 4 * w.toNat + 4 ∧ 4 * w.toNat < a + n ∧ 0 < n := by
  simp only [mem_byteRange]
  constructor
  · rintro ⟨k, hk, h1, h2⟩; omega
  · rintro ⟨h1, h2, h3⟩
    by_cases h : 4 * w.toNat ≤ a
    · exact ⟨a - 4 * w.toNat, by omega, by omega, by omega⟩
    · exact ⟨0, by omega, by omega, by omega⟩

/-! ## Stores -/

/-- What a write of the word at `pa` adds to the list: the old word, if the write has changed it. -/
theorem mem_noteStale {old new : List Host.Cell} {pa : PAddr} {list : List Stale} {e : Stale} :
    e ∈ noteStale old new pa list ↔ e ∈ list ∨
      (e.pa = pa.extractLsb' 2 34 ∧ e.old = memWord old (e.pa ++ 0#2) ∧ memWord new (e.pa ++ 0#2) ≠ e.old ∧
        e.cleared = []) := by
  obtain ⟨p, w, c⟩ := e
  unfold noteStale
  simp only
  split_ifs with h
  · constructor
    · exact .inl
    · rintro (g | ⟨rfl, rfl, g, -⟩)
      · exact g
      · exact absurd h.symm g
  · simp only [List.mem_cons, Stale.mk.injEq]
    constructor
    · rintro (⟨rfl, rfl, rfl⟩ | g)
      · exact .inr ⟨rfl, rfl, fun g => h g.symm, rfl⟩
      · exact .inl g
    · rintro (g | ⟨rfl, rfl, -, rfl⟩)
      · exact .inr g
      · exact .inl ⟨rfl, rfl, rfl⟩

/-- An aligned store of one, two, four or eight bytes leaves for fetches what they could see before, and the words it has
replaced. -/
theorem mem_storeBytes_stale {pa : PAddr} {bs : List Byte} (s : State) (e : Stale)
    (h : (0 < bs.length ∧ pa.toNat % 4 + bs.length ≤ 4) ∨ (bs.length = 8 ∧ pa.toNat % 8 = 0)) :
    e ∈ (storeBytes pa bs s).stale ↔
      e ∈ s.stale ∨ Replaced (byteRange pa.toNat bs.length) s (storeBytes pa bs s) e := by
  have hp := toNat_wordOf pa
  have eqv {w : BitVec 34} : w = pa.extractLsb' 2 34 ↔ w.toNat = pa.toNat / 4 := by rw [← BitVec.toNat_inj, hp]
  unfold Replaced
  rw [word_meets]
  simp only [storeBytes]
  rcases h with ⟨h0, h⟩ | ⟨h8, h⟩
  · rw [if_neg (by omega), mem_noteStale, eqv]
    have : e.pa.toNat = pa.toNat / 4 ↔
        pa.toNat < 4 * e.pa.toNat + 4 ∧ 4 * e.pa.toNat < pa.toNat + bs.length ∧ 0 < bs.length := by omega
    rw [this]
  · have h4 : ((pa + 4 : PAddr).extractLsb' 2 34).toNat = pa.toNat / 4 + 1 := by
      have := pa.isLt
      rw [toNat_wordOf, BitVec.toNat_add, show (4 : PAddr).toNat = 4 from rfl]
      omega
    have eqv4 {w : BitVec 34} : w = (pa + 4).extractLsb' 2 34 ↔ w.toNat = pa.toNat / 4 + 1 := by
      rw [← BitVec.toNat_inj, h4]
    rw [if_pos h8, mem_noteStale, mem_noteStale, eqv, eqv4]
    have : pa.toNat < 4 * e.pa.toNat + 4 ∧ 4 * e.pa.toNat < pa.toNat + bs.length ∧ 0 < bs.length ↔
        e.pa.toNat = pa.toNat / 4 ∨ e.pa.toNat = pa.toNat / 4 + 1 := by omega
    rw [this]
    tauto

/-- A PTE that the walker writes back stays visible to fetches as it was, if it has changed (log 27). -/
theorem mem_writePte_stale {addr : PAddr} (h : addr.toNat % 4 = 0) (old new : Word) (s : State) (e : Stale) :
    e ∈ (writePte addr old new s).stale ↔
      e ∈ s.stale ∨ Replaced (byteRange addr.toNat 4) s (writePte addr old new s) e := by
  unfold writePte
  split_ifs
  · simp only [Replaced]
    constructor
    · exact .inl
    · rintro (g | ⟨-, g, g', -⟩)
      · exact g
      · exact absurd g.symm g'
  · have := mem_storeBytes_stale (pa := addr) (bs := splitBytes (new.setWidth 64) 4) s e
      (.inl ⟨by simp, by rw [splitBytes_length]; omega⟩)
    rwa [splitBytes_length] at this

/-! ## The fetch -/

theorem staleAt_iff {pa : PAddr} {va : Word} {e : Stale} : staleAt pa va e = true ↔ SeenBy pa va e := by
  simp [staleAt, SeenBy]

/-- Everything a fetch can return: the word in memory, or a replaced one that it may still see. -/
theorem fetchWord_mem (pa : PAddr) (s : State) : (fetchWord pa s).1 ∈ fetchChoices pa s := by
  unfold fetchWord
  split
  · rename_i w h; rw [h]; exact List.mem_singleton_self w
  · have hl : 0 < (fetchChoices pa s).length := by simp [fetchChoices]
    have hi : freeIndex ((fetchChoices pa s).length - 1) s < (fetchChoices pa s).length := by
      have := Nat.mod_lt (freeValue s).toNat (show 0 < (fetchChoices pa s).length - 1 + 1 by omega)
      unfold freeIndex; omega
    rw [List.getD_eq_getElem _ _ hi]
    exact List.getElem_mem hi

/-- The words a fetch can return. -/
theorem mem_fetchChoices {pa : PAddr} {s : State} {w : Word} :
    w ∈ fetchChoices pa s ↔ w = memWord s.mem pa ∨ ∃ e ∈ s.stale, SeenBy pa s.pc e ∧ w = e.old := by
  simp only [fetchChoices, List.mem_cons, List.mem_map, List.mem_filter, staleAt_iff, and_assoc, eq_comm (a := w)]

/-- A fetch that can see no replaced word reads memory and draws no free value. -/
theorem fetchWord_of_unseen {pa : PAddr} {s : State} (h : ∀ e ∈ s.stale, ¬ SeenBy pa s.pc e) :
    fetchWord pa s = (memWord s.mem pa, s) := by
  have hf : s.stale.filter (staleAt pa s.pc) = [] := by
    rw [List.filter_eq_nil_iff]
    exact fun e he g => h e he (staleAt_iff.mp g)
  simp [fetchWord, fetchChoices, hf]

end Sys2Proof.Machine
end

