-- ==== Sys2Proof/Tests/Slice0.lean ====
section
/-! SUPPORT. Tests: the checks of WellFormed, the words of every row, the spec's own vectors (95_test_vectors.md, named in
the docstrings), and for every obligation with hypotheses a state and operands that meet them. -/

namespace Sys2Proof.Tests

open Sys2Proof.Machine Sys2Proof.Spec

/-! ## WellFormed -/

/-- The word of this term is NOP. -/
theorem test_wellFormed_refuses_sethi : ¬ (Instr.sethi 0 0).WellFormed := by decide
/-- The words of these terms are RDY and STBAR. -/
theorem test_wellFormed_refuses_rdasr : ¬ (Instr.rdasr ⟨5, .reg 0⟩ 0).WellFormed ∧
    ¬ (Instr.rdasr ⟨0, .reg 0⟩ 15).WellFormed := by decide
/-- The word of this term is WRY. -/
theorem test_wellFormed_refuses_wrasr : ¬ (Instr.wrasr 0 3 (.imm 7)).WellFormed := by decide
/-- The word of this term is FADDs. -/
theorem test_wellFormed_refuses_fpop1Other : ¬ (Instr.fpop1Other 1 2 0x041 3).WellFormed := by decide
/-- The word of this term is FCMPEd. -/
theorem test_wellFormed_refuses_fpop2Other : ¬ (Instr.fpop2Other 0 2 0x056 3).WellFormed := by decide
theorem test_wellFormed_accepts : (Instr.sethi 0 1).WellFormed ∧ (Instr.rdasr ⟨0, .reg 0⟩ 16).WellFormed ∧
    (Instr.wrasr 1 0 (.reg 0)).WellFormed ∧ (Instr.fpop1Other 0 0 0 0).WellFormed ∧
    (Instr.fpop2Other 0 0 0x1FF 0).WellFormed := by decide

/-! ## Decoding: every row of the opcode table, with operand fields put at the places R235 gives them -/

/-- Every word decodes to its instruction, which is well-formed. -/
def decodes (l : List (Nat × Instr)) : Bool := l.all fun p => decodeTableWord 32 p.1 == some p.2 && p.2.wellFormed

theorem test_decode_rows_1_to_20 : decodes
    [(0x0A15ABCD, .unimp 5 0x15ABCD), (0x0B2AAAA5, .sethi 5 0x2AAAA5),
     (0x01000000, .nop), (0x20BBCDEF, .bn true 0x3BCDEF),
     (0x02BBCDEF, .be false 0x3BCDEF), (0x24BBCDEF, .ble true 0x3BCDEF),
     (0x06BBCDEF, .bl false 0x3BCDEF), (0x28BBCDEF, .bleu true 0x3BCDEF),
     (0x0ABBCDEF, .bcs false 0x3BCDEF), (0x2CBBCDEF, .bneg true 0x3BCDEF),
     (0x0EBBCDEF, .bvs false 0x3BCDEF), (0x30BBCDEF, .ba true 0x3BCDEF),
     (0x12BBCDEF, .bne false 0x3BCDEF), (0x34BBCDEF, .bg true 0x3BCDEF),
     (0x16BBCDEF, .bge false 0x3BCDEF), (0x38BBCDEF, .bgu true 0x3BCDEF),
     (0x1ABBCDEF, .bcc false 0x3BCDEF), (0x3CBBCDEF, .bpos true 0x3BCDEF),
     (0x1EBBCDEF, .bvc false 0x3BCDEF), (0x21BBCDEF, .fbn true 0x3BCDEF)] = true := by decide

theorem test_decode_rows_21_to_40 : decodes
    [(0x03BBCDEF, .fbne false 0x3BCDEF), (0x25BBCDEF, .fblg true 0x3BCDEF),
     (0x07BBCDEF, .fbul false 0x3BCDEF), (0x29BBCDEF, .fbl true 0x3BCDEF),
     (0x0BBBCDEF, .fbug false 0x3BCDEF), (0x2DBBCDEF, .fbg true 0x3BCDEF),
     (0x0FBBCDEF, .fbu false 0x3BCDEF), (0x31BBCDEF, .fba true 0x3BCDEF),
     (0x13BBCDEF, .fbe false 0x3BCDEF), (0x35BBCDEF, .fbue true 0x3BCDEF),
     (0x17BBCDEF, .fbge false 0x3BCDEF), (0x39BBCDEF, .fbuge true 0x3BCDEF),
     (0x1BBBCDEF, .fble false 0x3BCDEF), (0x3DBBCDEF, .fbule true 0x3BCDEF),
     (0x1FBBCDEF, .fbo false 0x3BCDEF), (0x21FBCDEF, .cbn true 0x3BCDEF),
     (0x03FBCDEF, .cb123 false 0x3BCDEF), (0x25FBCDEF, .cb12 true 0x3BCDEF),
     (0x07FBCDEF, .cb13 false 0x3BCDEF), (0x29FBCDEF, .cb1 true 0x3BCDEF)] = true := by decide

theorem test_decode_rows_41_to_60 : decodes
    [(0x0BFBCDEF, .cb23 false 0x3BCDEF), (0x2DFBCDEF, .cb2 true 0x3BCDEF),
     (0x0FFBCDEF, .cb3 false 0x3BCDEF), (0x31FBCDEF, .cba true 0x3BCDEF),
     (0x13FBCDEF, .cb0 false 0x3BCDEF), (0x35FBCDEF, .cb03 true 0x3BCDEF),
     (0x17FBCDEF, .cb02 false 0x3BCDEF), (0x39FBCDEF, .cb023 true 0x3BCDEF),
     (0x1BFBCDEF, .cb01 false 0x3BCDEF), (0x3DFBCDEF, .cb013 true 0x3BCDEF),
     (0x1FFBCDEF, .cb012 false 0x3BCDEF), (0x6ABCDEF0, .call 0x2ABCDEF0),
     (0x8A04801B, .add 5 18 (.reg 27)), (0x8A0CBABC, .and 5 18 (.imm 0x1ABC)),
     (0x8A14BABC, .or 5 18 (.imm 0x1ABC)), (0x8A1C801B, .xor 5 18 (.reg 27)),
     (0x8A24801B, .sub 5 18 (.reg 27)), (0x8A2CBABC, .andn 5 18 (.imm 0x1ABC)),
     (0x8A34BABC, .orn 5 18 (.imm 0x1ABC)), (0x8A3C801B, .xnor 5 18 (.reg 27))] = true := by decide

theorem test_decode_rows_61_to_80 : decodes
    [(0x8A44801B, .addx 5 18 (.reg 27)), (0x8A54BABC, .umul 5 18 (.imm 0x1ABC)),
     (0x8A5CBABC, .smul 5 18 (.imm 0x1ABC)), (0x8A64801B, .subx 5 18 (.reg 27)),
     (0x8A74801B, .udiv 5 18 (.reg 27)), (0x8A7CBABC, .sdiv 5 18 (.imm 0x1ABC)),
     (0x8A84BABC, .addcc 5 18 (.imm 0x1ABC)), (0x8A8C801B, .andcc 5 18 (.reg 27)),
     (0x8A94801B, .orcc 5 18 (.reg 27)), (0x8A9CBABC, .xorcc 5 18 (.imm 0x1ABC)),
     (0x8AA4BABC, .subcc 5 18 (.imm 0x1ABC)), (0x8AAC801B, .andncc 5 18 (.reg 27)),
     (0x8AB4801B, .orncc 5 18 (.reg 27)), (0x8ABCBABC, .xnorcc 5 18 (.imm 0x1ABC)),
     (0x8AC4BABC, .addxcc 5 18 (.imm 0x1ABC)), (0x8AD4801B, .umulcc 5 18 (.reg 27)),
     (0x8ADC801B, .smulcc 5 18 (.reg 27)), (0x8AE4BABC, .subxcc 5 18 (.imm 0x1ABC)),
     (0x8AF4BABC, .udivcc 5 18 (.imm 0x1ABC)), (0x8AFC801B, .sdivcc 5 18 (.reg 27))] = true := by decide

theorem test_decode_rows_81_to_100 : decodes
    [(0x8B04801B, .taddcc 5 18 (.reg 27)), (0x8B0CBABC, .tsubcc 5 18 (.imm 0x1ABC)),
     (0x8B14BABC, .taddcctv 5 18 (.imm 0x1ABC)), (0x8B1C801B, .tsubcctv 5 18 (.reg 27)),
     (0x8B24801B, .mulscc 5 18 (.reg 27)), (0x8B2CA01D, .sll 5 18 (.cnt 0x1D)),
     (0x8B34A01D, .srl 5 18 (.cnt 0x1D)), (0x8B3C801B, .sra 5 18 (.reg 27)),
     (0x8B400000, .rdy 5), (0x8143C000, .stbar),
     (0x8B448000, .rdasr ⟨5, .reg 0⟩ 18), (0x8B480000, .rdpsr 5),
     (0x8B500000, .rdwim ⟨5, .reg 0⟩), (0x8B580000, .rdtbr ⟨5, .reg 0⟩),
     (0x8184BABC, .wry 18 (.imm 0x1ABC)), (0x8B84801B, .wrasr 5 18 (.reg 27)),
     (0x818C801B, .wrpsr 18 (.reg 27)), (0x8194BABC, .wrwim 18 (.imm 0x1ABC)),
     (0x819CBABC, .wrtbr 18 (.imm 0x1ABC)), (0x8BA0003B, .fmovs 5 27)] = true := by decide

theorem test_decode_rows_101_to_120 : decodes
    [(0x8BA000BB, .fnegs 5 27), (0x8BA0013B, .fabss 5 27),
     (0x8BA0053B, .fsqrts 5 27), (0x8BA0055B, .fsqrtd 5 27),
     (0x8BA4883B, .fadds 5 18 27), (0x8BA4885B, .faddd 5 18 27),
     (0x8BA488BB, .fsubs 5 18 27), (0x8BA488DB, .fsubd 5 18 27),
     (0x8BA4893B, .fmuls 5 18 27), (0x8BA4895B, .fmuld 5 18 27),
     (0x8BA489BB, .fdivs 5 18 27), (0x8BA489DB, .fdivd 5 18 27),
     (0x8BA48D3B, .fsmuld 5 18 27), (0x8BA0189B, .fitos 5 27),
     (0x8BA018DB, .fdtos 5 27), (0x8BA0191B, .fitod 5 27),
     (0x8BA0193B, .fstod 5 27), (0x8BA01A3B, .fstoi 5 27),
     (0x8BA01A5B, .fdtoi 5 27), (0x8BA0057B, .fsqrtq 5 27)] = true := by decide

theorem test_decode_rows_121_to_140 : decodes
    [(0x8BA4887B, .faddq 5 18 27), (0x8BA488FB, .fsubq 5 18 27),
     (0x8BA4897B, .fmulq 5 18 27), (0x8BA489FB, .fdivq 5 18 27),
     (0x8BA48DDB, .fdmulq 5 18 27), (0x8BA018FB, .fqtos 5 27),
     (0x8BA0197B, .fqtod 5 27), (0x8BA0199B, .fitoq 5 27),
     (0x8BA019BB, .fstoq 5 27), (0x8BA019DB, .fdtoq 5 27),
     (0x8BA01A7B, .fqtoi 5 27), (0x81AC8A3B, .fcmps 18 27),
     (0x81AC8A5B, .fcmpd 18 27), (0x81AC8ABB, .fcmpes 18 27),
     (0x81AC8ADB, .fcmped 18 27), (0x81AC8A7B, .fcmpq 18 27),
     (0x81AC8AFB, .fcmpeq 18 27), (0x8BA4B57B, .fpop1Other 5 18 0x1AB 27),
     (0x8BACB57B, .fpop2Other 5 18 0x1AB 27), (0x8BB4AABB, .cpop1 5 18 0x155 27)] = true := by decide

theorem test_decode_rows_141_to_160 : decodes
    [(0x8BBCAABB, .cpop2 5 18 0x155 27), (0x8BC4BABC, .jmpl 5 18 (.imm 0x1ABC)),
     (0x81CCBABC, .rett 18 (.imm 0x1ABC)), (0x81D4801B, .tn 18 (.reg 27)),
     (0x83D4801B, .te 18 (.reg 27)), (0x85D4A065, .tle 18 (.imm 0x65)),
     (0x87D4A065, .tl 18 (.imm 0x65)), (0x89D4801B, .tleu 18 (.reg 27)),
     (0x8BD4801B, .tcs 18 (.reg 27)), (0x8DD4A065, .tneg 18 (.imm 0x65)),
     (0x8FD4A065, .tvs 18 (.imm 0x65)), (0x91D4801B, .ta 18 (.reg 27)),
     (0x93D4801B, .tne 18 (.reg 27)), (0x95D4A065, .tg 18 (.imm 0x65)),
     (0x97D4A065, .tge 18 (.imm 0x65)), (0x99D4801B, .tgu 18 (.reg 27)),
     (0x9BD4801B, .tcc 18 (.reg 27)), (0x9DD4A065, .tpos 18 (.imm 0x65)),
     (0x9FD4A065, .tvc 18 (.imm 0x65)), (0x81DC801B, .flush 18 (.reg 27))] = true := by decide

theorem test_decode_rows_161_to_180 : decodes
    [(0x8BE4801B, .save 5 18 (.reg 27)), (0x8BECBABC, .restore 5 18 (.imm 0x1ABC)),
     (0xCA04BABC, .ld 5 18 (.imm 0x1ABC)), (0xCA0C801B, .ldub 5 18 (.reg 27)),
     (0xCA14801B, .lduh 5 18 (.reg 27)), (0xCA1CBABC, .ldd 5 18 (.imm 0x1ABC)),
     (0xCA24BABC, .st 5 18 (.imm 0x1ABC)), (0xCA2C801B, .stb 5 18 (.reg 27)),
     (0xCA34801B, .sth 5 18 (.reg 27)), (0xCA3CBABC, .std 5 18 (.imm 0x1ABC)),
     (0xCA4CBABC, .ldsb 5 18 (.imm 0x1ABC)), (0xCA54801B, .ldsh 5 18 (.reg 27)),
     (0xCA6C801B, .ldstub 5 18 (.reg 27)), (0xCA7CBABC, .swap 5 18 (.imm 0x1ABC)),
     (0xCA84917B, .lda 5 18 false 0x8B 27), (0xCA8CB17B, .lduba 5 18 true 0x8B 27),
     (0xCA94917B, .lduha 5 18 false 0x8B 27), (0xCA9CB17B, .ldda 5 18 true 0x8B 27),
     (0xCAA4917B, .sta 5 18 false 0x8B 27), (0xCAACB17B, .stba 5 18 true 0x8B 27)] = true := by decide

theorem test_decode_rows_181_to_200 : decodes
    [(0xCAB4917B, .stha 5 18 false 0x8B 27), (0xCABCB17B, .stda 5 18 true 0x8B 27),
     (0xCACC917B, .ldsba 5 18 false 0x8B 27), (0xCAD4B17B, .ldsha 5 18 true 0x8B 27),
     (0xCAEC917B, .ldstuba 5 18 false 0x8B 27), (0xCAFCB17B, .swapa 5 18 true 0x8B 27),
     (0xCB04BABC, .ldf 5 18 (.imm 0x1ABC)), (0xCB0C801B, .ldfsr 5 18 (.reg 27)),
     (0xCB1C801B, .lddf 5 18 (.reg 27)), (0xCB24BABC, .stf 5 18 (.imm 0x1ABC)),
     (0xCB2CBABC, .stfsr 5 18 (.imm 0x1ABC)), (0xCB34801B, .stdfq 5 18 (.reg 27)),
     (0xCB3C801B, .stdf 5 18 (.reg 27)), (0xCB84BABC, .ldc 5 18 (.imm 0x1ABC)),
     (0xCB8CBABC, .ldcsr 5 18 (.imm 0x1ABC)), (0xCB9C801B, .lddc 5 18 (.reg 27)),
     (0xCBA4801B, .stc 5 18 (.reg 27)), (0xCBACBABC, .stcsr 5 18 (.imm 0x1ABC)),
     (0xCBB4BABC, .stdcq 5 18 (.imm 0x1ABC)), (0xCBBC801B, .stdc 5 18 (.reg 27))] = true := by decide

/-- Vectors E1 to E38. -/
theorem test_decode_vectors_1 : decodes
    [(0x86004002, .add 3 1 (.reg 2)), (0x86007FFF, .add 3 1 (.imm 0x1FFF)), (0x80A20009, .subcc 0 8 (.reg 9)),
     (0x03048D15, .sethi 1 0x048D15), (0x82106278, .or 1 1 (.imm 0x278)), (0x85286005, .sll 2 1 (.cnt 5)),
     (0x87384002, .sra 3 1 (.reg 2)), (0x01000000, .nop), (0x00000000, .unimp 0 0), (0xC4006004, .ld 2 1 (.imm 4)),
     (0xC4184000, .ldd 2 1 (.reg 0)), (0xC4384000, .std 2 1 (.reg 0)), (0xC4486003, .ldsb 2 1 (.imm 3)),
     (0xC4506002, .ldsh 2 1 (.imm 2)), (0xC4106002, .lduh 2 1 (.imm 2)), (0xC4084000, .ldub 2 1 (.reg 0)),
     (0xC4286001, .stb 2 1 (.imm 1)), (0xC4306002, .sth 2 1 (.imm 2)), (0xC4204000, .st 2 1 (.reg 0)),
     (0xC4684000, .ldstub 2 1 (.reg 0)), (0xC4784000, .swap 2 1 (.reg 0)), (0xC4804080, .lda 2 1 false 0x04 0),
     (0xC0A04060, .sta 0 1 false 0x03 0), (0xC48045E0, .lda 2 1 false 0x2F 0), (0xC4984980, .ldda 2 1 false 0x4C 0),
     (0xC4B84980, .stda 2 1 false 0x4C 0), (0xC1004000, .ldf 0 1 (.reg 0)), (0xC5184000, .lddf 2 1 (.reg 0)),
     (0xC5386008, .stdf 2 1 (.imm 8)), (0xC1084000, .ldfsr 0 1 (.reg 0)), (0xC12C0011, .stfsr 0 16 (.reg 17)),
     (0xC1304000, .stdfq 0 1 (.reg 0)), (0x10800004, .ba false 4), (0x30800004, .ba true 4),
     (0x12BFFFFE, .bne false 0x3FFFFE), (0x32BFFFFE, .bne true 0x3FFFFE), (0x13800002, .fbe false 2),
     (0x11C00001, .cba false 1)] = true := by decide

/-- Vectors E39 to E74. -/
theorem test_decode_vectors_2 : decodes
    [(0x40000040, .call 0x40), (0x81C3E008, .jmpl 0 15 (.imm 8)), (0x81C7E008, .jmpl 0 31 (.imm 8)),
     (0x81CCA004, .rett 18 (.imm 4)), (0x9DE3BFA0, .save 14 14 (.imm 0x1FA0)), (0x81E80000, .restore 0 0 (.reg 0)),
     (0x91D02005, .ta 0 (.imm 5)), (0x83D06003, .te 1 (.imm 3)), (0xA1480000, .rdpsr 16), (0x83400000, .rdy 1),
     (0x83500000, .rdwim ⟨1, .reg 0⟩), (0x83580000, .rdtbr ⟨1, .reg 0⟩), (0x8143C000, .stbar),
     (0x83440000, .rdasr ⟨1, .reg 0⟩ 16),
     (0x81806000, .wry 1 (.imm 0)), (0x81880001, .wrpsr 0 (.reg 1)), (0x81902002, .wrwim 0 (.imm 2)),
     (0x81986000, .wrtbr 1 (.imm 0)), (0x81D84000, .flush 1 (.reg 0)), (0x81A08824, .fadds 0 2 4),
     (0x81A80A21, .fcmps 0 1), (0x85A01A21, .fstoi 2 1), (0x85A00021, .fmovs 2 1), (0x91A00864, .faddq 8 0 4),
     (0x86504002, .umul 3 1 (.reg 2)), (0x86D84002, .smulcc 3 1 (.reg 2)), (0x86704002, .udiv 3 1 (.reg 2)),
     (0x86784002, .sdiv 3 1 (.reg 2)), (0x83204002, .mulscc 1 1 (.reg 2)), (0x87104002, .taddcctv 3 1 (.reg 2)),
     (0x86404002, .addx 3 1 (.reg 2)), (0x86B84002, .xnorcc 3 1 (.reg 2)), (0xC1804000, .ldc 0 1 (.reg 0)),
     (0x81B00000, .cpop1 0 0 0 0), (0xC4806000, .lda 2 1 true 0 0), (0x20800000, .bn true 0)] = true := by decide

/-- R521, R523, R524: bits 13:0 of these words are not looked at, but for bits 12:5 of R247. -/
theorem test_decode_reads : decodes [(0x83443FFF, .rdasr ⟨1, .imm 0x1FFF⟩ 16), (0x83502001, .rdwim ⟨1, .imm 1⟩),
      (0x83580002, .rdtbr ⟨1, .reg 2⟩)] = true ∧
    decodeWord 0x83500020 = .error .reservedBits ∧ decodeWord 0x83402000 = .error .reservedBits := by decide

/-- R247, D13: a reserved bit set is refused by name; R542: an unallocated opcode is not an instruction. -/
theorem test_decode_refuses : decodeWord 0x86004022 = .error .reservedBits ∧ decodeWord 0x03C00000 = .ok (.cb123 false 0) ∧
    decodeWord 0x00400000 = .error .unallocatedFormat2 ∧ decodeWord 0x80480000 = .error .unallocatedArith ∧
    decodeWord 0xC0400000 = .error .unallocatedMemory ∧ decode [0x01, 0, 0] = .error .truncated := by
  refine ⟨?_, ?_, ?_, ?_, ?_, ?_⟩ <;> rfl

/-! ## One instruction -/

/-- Start state S0 of the vectors. -/
def s0 : State := { State.reset with psr := psrOfWord 0x400000E0, tbr := { tba := 4, tt := 0 }, pc := 0x1000, npc := 0x1004 }

/-- S0 with %g1 and %g2. -/
def s2 (a b : Word) : State := writeReg 2 b (writeReg 1 a s0)

/-- The instruction completes, and `p` holds after it. -/
def after (r : Result) (p : State → Bool) : Bool :=
  match r with
  | .next t => p t
  | _ => false

/-- It is refused by this name. -/
def refusedWith (e : Refusal) (r : Result) : Bool :=
  match r with
  | .refused x => x == e
  | _ => false

/-- It takes this trap, in a state with ET = 1. -/
def trapsWith (tt : TrapType) (r : Result) : Bool := after r fun t => t.trapped && t.tbr.tt == tt && !t.errorMode

/-- icc, as the bits NZVC. -/
def icc (t : State) : BitVec 4 :=
  BitVec.ofBool t.psr.n ++ BitVec.ofBool t.psr.z ++ BitVec.ofBool t.psr.v ++ BitVec.ofBool t.psr.c

/-- `op %g1, %g2, %g3` leaves this result and these codes. -/
def alu (op : Reg → Reg → Opnd2 → Instr) (a b r : Word) (c : BitVec 4) (start : State := s2 a b) : Bool :=
  after (exec (op 3 1 (.reg 2)) start) fun t => readReg 3 t == r && icc t == c && t.pc == 0x1004 && t.npc == 0x1008

/-- S0 with icc. -/
def withIcc (c : BitVec 4) (s : State) : State :=
  { s with psr := { s.psr with n := c.getLsbD 3, z := c.getLsbD 2, v := c.getLsbD 1, c := c.getLsbD 0 } }

/-- S0 with Y, %g1 and %g2. -/
def sy (y a b : Word) : State := { s2 a b with y := y }

/-- I1 to I6. -/
theorem test_add : alu .add 0xFFFFFFFF 1 0 0 = true := by decide
theorem test_addcc_overflow : alu .addcc 0x7FFFFFFF 1 0x80000000 0b1010 = true := by decide
theorem test_addcc_carry : alu .addcc 0x80000000 0x80000000 0 0b0111 = true := by decide
theorem test_addx : alu .addx 0x7FFFFFFF 0 0x80000000 1 (withIcc 1 (s2 0x7FFFFFFF 0)) = true := by decide
theorem test_addxcc : alu .addxcc 0xFFFFFFFF 0 0 0b0101 (withIcc 1 (s2 0xFFFFFFFF 0)) = true := by decide
/-- I7 to I12. -/
theorem test_sub : alu .sub 5 7 0xFFFFFFFE 0 = true := by decide
theorem test_subcc_borrow : alu .subcc 5 7 0xFFFFFFFE 0b1001 = true := by decide
theorem test_subcc_overflow : alu .subcc 0 0x80000000 0x80000000 0b1011 = true := by decide
theorem test_subx : alu .subx 0x80000000 0 0x7FFFFFFF 1 (withIcc 1 (s2 0x80000000 0)) = true := by decide
theorem test_subxcc : alu .subxcc 0 0 0xFFFFFFFF 0b1001 (withIcc 1 (s2 0 0)) = true := by decide
/-- I13 to I19. -/
theorem test_logic : ([(.and, 0x00F000F0), (.andn, 0xF000F000), (.or, 0xFFF0FFF0), (.orn, 0xF0FFF0FF), (.xor, 0xFF00FF00),
    (.xnor, 0x00FF00FF)] : List ((Reg → Reg → Opnd2 → Instr) × Word)).all
      (fun p => alu p.1 0xF0F0F0F0 0x0FF00FF0 p.2 0b0011 (withIcc 0b0011 (s2 0xF0F0F0F0 0x0FF00FF0))) = true := by decide
theorem test_logic_cc : ([(.andcc, 0x00F000F0, 0), (.andncc, 0xF000F000, 8), (.orcc, 0xFFF0FFF0, 8),
    (.orncc, 0xF0FFF0FF, 8), (.xorcc, 0xFF00FF00, 8), (.xnorcc, 0x00FF00FF, 0)] :
      List ((Reg → Reg → Opnd2 → Instr) × Word × BitVec 4)).all
      (fun p => alu p.1 0xF0F0F0F0 0x0FF00FF0 p.2.1 p.2.2 (withIcc 0b0011 (s2 0xF0F0F0F0 0x0FF00FF0))) = true := by decide
/-- I20 to I24. -/
theorem test_sll : after (exec (.sll 3 1 (.reg 2)) (s2 1 0x20)) (fun t => readReg 3 t == 1) = true := by decide
theorem test_srl : after (exec (.srl 3 1 (.cnt 31)) (s2 0x80000000 0)) (fun t => readReg 3 t == 1) = true := by decide
theorem test_sra : after (exec (.sra 3 1 (.reg 2)) (s2 0x80000000 0xFFFFFFE4)) (fun t => readReg 3 t == 0xF8000000) =
    true := by decide
/-- I25 to I29. -/
theorem test_taddcc : alu .taddcc 4 9 13 0b0010 = true := by decide
theorem test_tsubcc : alu .tsubcc 8 6 2 0b0010 = true := by decide
theorem test_taddcctv : trapsWith 0x0A (exec (.taddcctv 3 1 (.reg 2)) (s2 4 9)) = true := by decide
theorem test_tsubcctv : alu .tsubcctv 8 4 4 0 = true := by decide
/-- I30, I35. -/
theorem test_umul : after (exec (.umul 3 1 (.reg 2)) (s2 0x12345678 0x9ABCDEF0)) (fun t =>
    t.y == 0x0B00EA4E && readReg 3 t == 0x242D2080) = true := by decide
theorem test_smul : after (exec (.smul 3 1 (.reg 2)) (s2 0x12345678 0x9ABCDEF0)) (fun t =>
    t.y == 0xF8CC93D6 && readReg 3 t == 0x242D2080) = true := by decide
/-- I31, I34. -/
theorem test_umulcc : after (exec (.umulcc 3 1 (.reg 2)) (s2 0x80000000 2)) (fun t =>
    t.y == 1 && readReg 3 t == 0 && icc t == 4) = true := by decide
theorem test_smulcc : after (exec (.smulcc 3 1 (.reg 2)) (s2 0x80000000 2)) (fun t =>
    t.y == 0xFFFFFFFF && readReg 3 t == 0 && icc t == 4) = true := by decide
/-- I37, I38. -/
theorem test_mulscc : after (exec (.mulscc 3 1 (.reg 2)) (sy 1 3 0x10)) (fun t =>
    t.y == 0x80000000 && readReg 3 t == 0x11 && icc t == 0) = true := by decide
theorem test_mulscc_sign : after (exec (.mulscc 3 1 (.reg 2)) (withIcc 8 (sy 0xFFFFFFFE 0x80000001 7))) (fun t =>
    t.y == 0xFFFFFFFF && readReg 3 t == 0xC0000000 && icc t == 8) = true := by decide
/-- I44, I46. -/
theorem test_udiv : after (exec (.udiv 3 1 (.reg 2)) (sy 0x000FFFFF 0xFFFFFFFF 0xFFFFFFFF)) (fun t =>
    readReg 3 t == 0x00100000) = true := by decide
theorem test_udiv_wide : trapsWith 0x02 (exec (.udiv 3 1 (.reg 2)) (sy 0x00100000 0 0)) = true := by decide
/-- I43, I42. -/
theorem test_udivcc : after (exec (.udivcc 3 1 (.reg 2)) (sy 0x000FFFFF 0xFFFFFFFF 1)) (fun t =>
    readReg 3 t == 0xFFFFFFFF && icc t == 0b1010) = true := by decide
theorem test_udivcc_zero : trapsWith 0x2A (exec (.udivcc 3 1 (.reg 2)) (sy 0 0x64 0)) = true := by decide
/-- I51, I57. -/
theorem test_sdiv : after (exec (.sdiv 3 1 (.reg 2)) (sy 0xFFFFFFFF 0xFFFFFFF9 2)) (fun t =>
    readReg 3 t == 0xFFFFFFFD) = true := by decide
theorem test_sdiv_wide : trapsWith 0x02 (exec (.sdiv 3 1 (.reg 2)) (sy 0xFFF7FFFF 0xFFFFFFFF 1)) = true := by decide
/-- I52, I56. -/
theorem test_sdivcc : after (exec (.sdivcc 3 1 (.reg 2)) (sy 0xFFFFFFFF 0x80000000 0xFFFFFFFF)) (fun t =>
    readReg 3 t == 0x7FFFFFFF && icc t == 0b0010) = true := by decide
theorem test_sdivcc_least : after (exec (.sdivcc 3 1 (.reg 2)) (sy 0xFFF80000 0 1)) (fun t =>
    readReg 3 t == 0x80000000 && icc t == 0b1010) = true := by decide
/-- E4, E8. -/
theorem test_sethi : after (exec (.sethi 1 0x048D15) s0) (fun t => readReg 1 t == 0x12345400) = true := by decide
theorem test_nop : after (exec .nop s0) (fun t => t.pc == 0x1004 && t.npc == 0x1008 && t.psr == s0.psr && t.globals == s0.globals) = true := by decide

/-! ## Loads and stores -/

/-- S0 with eight bytes at 0x6000, %g1 = 0x6000, %g2 and %g3, and PSR.DE. -/
def sm (bytes : List Byte) (r2 r3 : Word) (little : Bool) : State :=
  { writeReg 3 r3 (s2 0x6000 r2) with
    mem := Memory.writeBytes [] 0x6000 bytes
    psr := { s0.psr with de := little, ef := true } }

def sample : List Byte := [0x80, 0x91, 0xA2, 0xB3, 0xC4, 0xD5, 0xE6, 0xF7]

/-- What a load leaves in %g2, in both byte orders. -/
def loads (i : Instr) (big little : Word) : Bool :=
  after (exec i (sm sample 0 0 false)) (fun t => readReg 2 t == big) &&
    after (exec i (sm sample 0 0 true)) (fun t => readReg 2 t == little)

/-- The eight bytes at 0x6000 after a store of %g2 (and %g3), in both byte orders. -/
def stores (i : Instr) (r2 r3 : Word) (old big little : List Byte) : Bool :=
  after (exec i (sm old r2 r3 false)) (fun t => Memory.readBytes t.mem 0x6000 8 == big && Memory.wf t.mem) &&
    after (exec i (sm old r2 r3 true)) (fun t => Memory.readBytes t.mem 0x6000 8 == little && Memory.wf t.mem)

def zeros : List Byte := List.replicate 8 0

/-- M1 to M8. -/
theorem test_ld : loads (.ld 2 1 (.imm 4)) 0xC4D5E6F7 0xF7E6D5C4 = true := by decide
theorem test_lduh : loads (.lduh 2 1 (.imm 2)) 0x0000A2B3 0x0000B3A2 = true := by decide
theorem test_ldsh : loads (.ldsh 2 1 (.imm 0)) 0xFFFF8091 0xFFFF9180 = true := by decide
theorem test_ldub : loads (.ldub 2 1 (.imm 3)) 0x000000B3 0x000000B3 = true := by decide
theorem test_ldsb : loads (.ldsb 2 1 (.imm 3)) 0xFFFFFFB3 0xFFFFFFB3 = true := by decide
theorem test_ldd : (loads (.ldd 2 1 (.imm 0)) 0x8091A2B3 0xB3A29180 && after (exec (.ldd 2 1 (.imm 0)) (sm sample 0 0 true))
    (fun t => readReg 3 t == 0xF7E6D5C4)) = true := by decide
/-- M28. -/
theorem test_ldd_g0 : after (exec (.ldd 0 1 (.imm 0)) (sm sample 0 0 false)) (fun t =>
    readReg 0 t == 0 && readReg 1 t == 0xC4D5E6F7) = true := by decide
/-- The alternate forms, in ASI 0x20, at 0x6000 (T21). -/
theorem test_lda : loads (.lda 2 1 false 0x20 0) 0x8091A2B3 0xB3A29180 = true := by decide
theorem test_lduha : loads (.lduha 2 1 false 0x20 0) 0x00008091 0x00009180 = true := by decide
theorem test_ldsha : loads (.ldsha 2 1 false 0x0B 0) 0xFFFF8091 0xFFFF9180 = true := by decide
theorem test_lduba : loads (.lduba 2 1 false 0x20 0) 0x00000080 0x00000080 = true := by decide
theorem test_ldsba : loads (.ldsba 2 1 false 0x0A 0) 0xFFFFFF80 0xFFFFFF80 = true := by decide
theorem test_ldda : loads (.ldda 2 1 false 0x20 0) 0x8091A2B3 0xB3A29180 = true := by decide
/-- M11 to M14. -/
theorem test_st : stores (.st 2 1 (.imm 0)) 0x11223344 0 zeros [0x11, 0x22, 0x33, 0x44, 0, 0, 0, 0]
    [0x44, 0x33, 0x22, 0x11, 0, 0, 0, 0] = true := by decide
theorem test_sth : stores (.sth 2 1 (.imm 2)) 0xDEADAABB 0 zeros [0, 0, 0xAA, 0xBB, 0, 0, 0, 0]
    [0, 0, 0xBB, 0xAA, 0, 0, 0, 0] = true := by decide
theorem test_stb : stores (.stb 2 1 (.imm 1)) 0x123456CC 0 zeros [0, 0xCC, 0, 0, 0, 0, 0, 0]
    [0, 0xCC, 0, 0, 0, 0, 0, 0] = true := by decide
theorem test_std : stores (.std 2 1 (.imm 0)) 0x00112233 0x44556677 zeros [0, 0x11, 0x22, 0x33, 0x44, 0x55, 0x66, 0x77]
    [0x33, 0x22, 0x11, 0, 0x77, 0x66, 0x55, 0x44] = true := by decide
theorem test_sta : stores (.sta 2 1 false 0x20 0) 0x11223344 0 zeros [0x11, 0x22, 0x33, 0x44, 0, 0, 0, 0]
    [0x44, 0x33, 0x22, 0x11, 0, 0, 0, 0] = true := by decide
theorem test_stha : stores (.stha 2 1 false 0x20 0) 0xDEADAABB 0 zeros [0xAA, 0xBB, 0, 0, 0, 0, 0, 0]
    [0xBB, 0xAA, 0, 0, 0, 0, 0, 0] = true := by decide
theorem test_stba : stores (.stba 2 1 false 0x0B 0) 0x123456CC 0 zeros [0xCC, 0, 0, 0, 0, 0, 0, 0]
    [0xCC, 0, 0, 0, 0, 0, 0, 0] = true := by decide
theorem test_stda : stores (.stda 2 1 false 0x20 0) 0x00112233 0x44556677 zeros
    [0, 0x11, 0x22, 0x33, 0x44, 0x55, 0x66, 0x77] [0x33, 0x22, 0x11, 0, 0x77, 0x66, 0x55, 0x44] = true := by decide
/-- M17, M19, M20. -/
theorem test_ldstub : (loads (.ldstub 2 1 (.imm 0)) 0x80 0x80 && stores (.ldstub 2 1 (.imm 0)) 0 0 sample
    (0xFF :: sample.drop 1) (0xFF :: sample.drop 1)) = true := by decide
theorem test_swap : (stores (.swap 2 1 (.imm 0)) 0x11223344 0 sample ([0x11, 0x22, 0x33, 0x44] ++ sample.drop 4)
    ([0x44, 0x33, 0x22, 0x11] ++ sample.drop 4) && loads (.swap 2 1 (.imm 0)) 0x8091A2B3 0xB3A29180) = true := by decide
theorem test_ldstuba : stores (.ldstuba 2 1 false 0x20 0) 0 0 sample (0xFF :: sample.drop 1) (0xFF :: sample.drop 1) =
    true := by decide
theorem test_swapa : stores (.swapa 2 1 false 0x0B 0) 0 0 sample (0 :: 0 :: 0 :: 0 :: sample.drop 4)
    (0 :: 0 :: 0 :: 0 :: sample.drop 4) = true := by decide
/-- M21 to M27, E73, and the priorities of R779. -/
theorem test_memory_traps : ([(.ld 2 1 (.imm 2), 0x07), (.lduh 2 1 (.imm 1), 0x07), (.ldd 3 1 (.imm 1), 0x02),
    (.ldd 2 1 (.imm 4), 0x07), (.ldc 0 1 (.reg 0), 0x24), (.lda 2 1 true 0 0, 0x02), (.stda 3 1 false 0x0B 0, 0x02)] :
      List (Instr × TrapType)).all (fun p => trapsWith p.2 (exec p.1 (sm sample 0 0 false))) = true := by decide
theorem test_memory_traps_user : ([(.lda 2 1 true 4 0, 0x03), (.stdfq 0 1 (.imm 1), 0x03), (.ldf 0 1 (.imm 1), 0x04),
    (.ldstuba 2 1 false 0x20 0, 0x03)] : List (Instr × TrapType)).all
      (fun p => trapsWith p.2 (exec p.1 { s0 with psr := psrOfWord 0x20 })) = true := by decide

/-! ## Control transfer -/

/-- The program counters after an instruction at 0x1000. -/
def goes (i : Instr) (s : State) (pc npc : Word) : Bool := after (exec i s) fun t => t.pc == pc && t.npc == npc

/-- B1, B2, B3 to B8. -/
theorem test_ba : (goes (.ba false 4) s0 0x1004 0x1010 && goes (.ba true 4) s0 0x1010 0x1014) = true := by decide
theorem test_bne : (goes (.bne false 0x3FFFFE) s0 0x1004 0xFF8 && goes (.bne true 0x3FFFFE) s0 0x1004 0xFF8) = true := by
  decide
theorem test_bne_untaken : (goes (.bne false 0x3FFFFE) (withIcc 4 s0) 0x1004 0x1008 &&
    goes (.bne true 0x3FFFFE) (withIcc 4 s0) 0x1008 0x100C) = true := by decide
theorem test_bn : (goes (.bn true 0) s0 0x1008 0x100C && goes (.bn false 0) s0 0x1004 0x1008) = true := by decide

def branches : List (Bool → BitVec 22 → Instr) :=
  [.bneg, .bvs, .bge, .bg, .bne, .bcc, .bgu, .bl, .ble, .be, .bcs, .bleu, .bpos, .bvc]

/-- Which branches of the list are taken. -/
def taken (c : BitVec 4) : List Bool := branches.map fun b => goes (b false 4) (withIcc c s0) 0x1004 0x1010

/-- The condition table for icc = 1010 and 1001. -/
theorem test_conditions : (taken 0b1010 == (List.replicate 7 true ++ List.replicate 7 false) && taken 0b1001 ==
    [true, false, false, false, true, false, false, true, true, false, true, true, false, true]) = true := by decide
/-- And for icc = 0100. -/
theorem test_conditions_zero : (taken 0b0100 ==
    [false, false, true, false, false, true, false, false, true, true, false, true, true, true]) = true := by decide

/-- The relations of R244: which of the fcc values 0 to 3 take each branch. -/
theorem test_float_conditions : ([(.fbne, [1, 2, 3]), (.fblg, [1, 2]), (.fbul, [1, 3]), (.fbl, [1]), (.fbug, [2, 3]),
    (.fbg, [2]), (.fbu, [3]), (.fba, [0, 1, 2, 3]), (.fbe, [0]), (.fbue, [0, 3]), (.fbge, [0, 2]), (.fbuge, [0, 2, 3]),
    (.fble, [0, 1]), (.fbule, [0, 1, 3]), (.fbo, [0, 1, 2]), (.fbn, [])] :
      List ((Bool → BitVec 22 → Instr) × List (BitVec 2))).all (fun p => [(0 : BitVec 2), 1, 2, 3].all fun f =>
        goes (p.1 false 4) { s0 with psr := psrOfWord 0x400010E0, fsr := { s0.fsr with fcc := f } } 0x1004
          (if p.2.contains f then 0x1010 else 0x1008)) = true := by decide

/-- B9 to B12. -/
theorem test_call : after (exec (.call 0x40) s0) (fun t => t.npc == 0x1100 && readReg 15 t == 0x1000) = true := by decide
theorem test_jmpl : after (exec (.jmpl 15 1 (.reg 0)) (s2 0x3000 0)) (fun t =>
    t.npc == 0x3000 && readReg 15 t == 0x1000) = true := by decide
theorem test_jmpl_misaligned : trapsWith 0x07 (exec (.jmpl 15 1 (.reg 0)) (s2 0x3002 0)) = true := by decide
/-- B20 to B23. -/
theorem test_save : after (exec (.save 14 14 (.imm 0x1FA0)) { writeReg 14 0x8000 s0 with wim := 2 }) (fun t =>
    t.psr.cwp == 7 && t.windows[118] == 0x7FA0 && t.windows[6] == 0x8000) = true := by decide
theorem test_save_overflow : trapsWith 0x05 (exec (.save 14 14 (.imm 0x1FA0))
    { s0 with wim := 2, psr := { s0.psr with cwp := 2 } }) = true := by decide
theorem test_restore : after (exec (.restore 8 8 (.imm 0)) (writeReg 8 0x2A { s0 with psr := { s0.psr with cwp := 7 } }))
    (fun t => t.psr.cwp == 0 && readReg 8 t == 0x2A) = true := by decide
theorem test_restore_underflow : trapsWith 0x06 (exec (.restore 0 0 (.reg 0)) { s0 with wim := 2 }) = true := by decide
/-- B24 to B28. -/
theorem test_ta : after (exec (.ta 0 (.imm 5)) s0) (fun t => t.tbr.tt == 0x85 && t.pc == 0x4850) = true := by decide
theorem test_te : (trapsWith 0x81 (exec (.te 1 (.imm 3)) (withIcc 4 (s2 0xFFFFFFFE 0))) &&
    trapsWith 0x80 (exec (.te 1 (.imm 3)) (withIcc 4 (s2 0x17D 0))) && goes (.te 1 (.imm 3)) s0 0x1004 0x1008) = true := by
  decide
theorem test_ta_error_mode : after (exec (.ta 0 (.imm 0)) { s0 with psr := psrOfWord 0xC0 }) (fun t =>
    t.errorMode && t.tbr.tt == 0x80) = true := by decide
/-- The other conditions of Ticc at icc = 1010 (R243). -/
theorem test_ticc : (([.tneg, .tvs, .tge, .tg, .tne, .tcc, .tgu] : List (Reg → TrapNum → Instr)).all
      (fun c => trapsWith 0x83 (exec (c 0 (.imm 3)) (withIcc 0b1010 s0))) &&
    ([.tl, .tle, .te, .tcs, .tleu, .tpos, .tvc, .tn] : List (Reg → TrapNum → Instr)).all
      (fun c => goes (c 0 (.imm 3)) (withIcc 0b1010 s0) 0x1004 0x1008)) = true := by decide
/-- B29, B32. -/
theorem test_rett : after (exec (.rett 18 (.imm 4))
    (writeReg 18 0x3008 { s0 with psr := psrOfWord 0x40000087, npc := 0x3008 })) (fun t =>
      psrWord t.psr == 0x40000020 && t.pc == 0x3008 && t.npc == 0x300C) = true := by decide
theorem test_rett_underflow : after (exec (.rett 18 (.imm 4)) { s0 with psr := psrOfWord 0x40000087, wim := 1 }) (fun t =>
    t.errorMode && t.tbr.tt == 0x06) = true := by decide
/-- Every coprocessor row (R462, R463, R420 to R426). -/
theorem test_coprocessor : (([.cbn, .cb123, .cb12, .cb13, .cb1, .cb23, .cb2, .cb3, .cba, .cb0, .cb03, .cb02, .cb023, .cb01,
      .cb013, .cb012] : List (Bool → BitVec 22 → Instr)).all (fun c => trapsWith 0x24 (exec (c false 1) s0)) &&
    ([.cpop1 0 0 0 0, .cpop2 0 0 0 0, .ldc 0 1 (.reg 0), .lddc 0 1 (.reg 0), .ldcsr 0 1 (.reg 0), .stc 0 1 (.reg 0),
      .stdc 0 1 (.reg 0), .stcsr 0 1 (.reg 0), .stdcq 0 1 (.reg 0)] : List Instr).all
      (fun i => trapsWith 0x24 (exec i s0))) = true := by decide

/-! ## State registers -/

/-- W1 to W13. -/
theorem test_rdpsr : after (exec (.rdpsr 16) s0) (fun t => readReg 16 t == 0x400000E0) = true := by decide
theorem test_rdpsr_user : trapsWith 0x03 (exec (.rdpsr 16) { s0 with psr := psrOfWord 0x20 }) = true := by decide
theorem test_wrpsr : after (exec (.wrpsr 0 (.reg 1)) (s2 0xFFFFFFE7 0)) (fun t => psrWord t.psr == 0x40F0BFE7) = true := by
  decide
theorem test_wrpsr_window : trapsWith 0x02 (exec (.wrpsr 0 (.imm 8)) s0) = true := by decide
theorem test_wry : after (exec (.wry 1 (.imm 0xF)) (s2 0xCAFEBABE 0)) (fun t => t.y == 0xCAFEBAB1) = true := by decide
theorem test_rdy : after (exec (.rdy 2) (sy 0xCAFEBABE 0 0)) (fun t => readReg 2 t == 0xCAFEBABE) = true := by decide
theorem test_wrwim : after (exec (.wrwim 0 (.imm 0x1FF)) s0) (fun t => t.wim == 0xFF) = true := by decide
theorem test_rdwim : after (exec (.rdwim ⟨2, .reg 0⟩) { s0 with wim := 0xA5 }) (fun t => readReg 2 t == 0xA5) = true := by decide
theorem test_wrtbr : after (exec (.wrtbr 1 (.imm 0)) { s2 0x12345FFF 0 with tbr := { tba := 4, tt := 0x85 } }) (fun t =>
    tbrWord t.tbr == 0x12345850) = true := by decide
theorem test_rdtbr : after (exec (.rdtbr ⟨2, .imm 1⟩) { s0 with tbr := { tba := 4, tt := 0x85 } }) (fun t =>
    readReg 2 t == 0x4850) = true := by decide
theorem test_illegal : ([.rdasr ⟨1, .reg 3⟩ 16, .wrasr 16 1 (.imm 0), .unimp 0 0] : List Instr).all
    (fun i => trapsWith 0x02 (exec i s0)) = true := by decide
theorem test_stbar : after (exec .stbar s0) (fun t => t.pc == 0x1004 && t.npc == 0x1008 && t.mem == s0.mem && t.stale == []) = true := by decide
/-- The state out of boot mode. -/
def noBoot (s : State) : State := { s with mmu := { s.mmu with cntl := { s.mmu.cntl with bt := false } } }

/-- Two replaced words, the first in the doubleword that 0x2000 names. -/
def twoStale : State :=
  noBoot { s2 0x2000 0 with stale := [{ pa := 0x800, old := 1, cleared := [] }, { pa := 0x1000, old := 2, cleared := [] }] }

/-- R205, R206, R540: FLUSH of a doubleword ends what fetches from it may still see, at any virtual address. -/
theorem test_flush : after (exec (.flush 1 (.imm 4)) twoStale)
    (fun t => t.stale == [{ pa := 0x1000, old := 2, cleared := [0x400] }]) = true := by decide

/-! ## Floating point -/

/-- EF = 1, an FSR, %f1 and %f2. -/
def sf (fsr a b : Word) : State :=
  let s := { s0 with psr := psrOfWord 0x400010E0 }
  writeF 2 b (writeF 1 a { s with fsr := fsrLoad fsr s.fsr })

/-- EF = 1 and the doubles %f2, %f4. -/
def sd (a b : BitVec 64) : State := writeD 4 b (writeD 2 a (sf 0 0 0))

/-- %f0 and the FSR after an FPop on %f1 and %f2. -/
def floats (i : Instr) (fsr a b r after_ : Word) : Bool :=
  after (exec i (sf fsr a b)) fun t => readF 0 t == r && fsrWord t == after_

/-- The double %f0 and the FSR after an FPop on the doubles %f2 and %f4. -/
def doubles (i : Instr) (a b r : BitVec 64) (after_ : Word) : Bool :=
  after (exec i (sd a b)) fun t => readD 0 t == r && fsrWord t == after_

/-- F2, F3. -/
theorem test_fadds : floats (.fadds 0 1 2) 0x80000000 0x3F800000 0x33800000 0x3F800001 0x80000021 = true := by decide
/-- F12. -/
theorem test_fadds_nan : floats (.fadds 0 1 2) 0 0x3F800000 0xFF800002 0xFFC00002 0x00000210 = true := by decide
/-- 1.0 - 2.25 = -1.25 (R567). -/
theorem test_fsubs : floats (.fsubs 0 1 2) 0 0x3F800000 0x40100000 0xBFA00000 0 = true := by decide
/-- S1. -/
theorem test_faddd : doubles (.faddd 0 2 4) 0x400B000000000000 0x3FD8000000000000 0x400E000000000000 0 = true := by decide
theorem test_fsubd : doubles (.fsubd 0 2 4) 0x400E000000000000 0x3FD8000000000000 0x400B000000000000 0 = true := by decide
theorem test_fmuld : doubles (.fmuld 0 2 4) 0x3FF8000000000000 0x4002000000000000 0x400B000000000000 0 = true := by decide
theorem test_fdivd : doubles (.fdivd 0 2 4) 0x400B000000000000 0x4002000000000000 0x3FF8000000000000 0 = true := by decide
/-- Odd registers name the pairs %f0, %f2 and %f4, and ftt stays 0 (R770, U5). -/
theorem test_faddd_odd : doubles (.faddd 1 3 5) 0x400B000000000000 0x3FD8000000000000 0x400E000000000000 0 = true := by decide
/-- F7, F8. -/
theorem test_fmuls : floats (.fmuls 0 1 2) 0 0x7F7FFFFF 0x40000000 0x7F800000 0x00000129 = true := by decide
theorem test_fmuls_trap : after (exec (.fmuls 0 1 2) (sf 0x04000000 0x7F7FFFFF 0x40000000)) (fun t =>
    readF 0 t == 0 && fsrWord t == 0x04006008 && t.fpMode == .exceptionPending && t.fq == [(0x1000, 0x81A04922)]) = true := by
  decide
/-- F4, F5. -/
theorem test_fdivs : floats (.fdivs 0 1 2) 0 0x3F800000 0 0x7F800000 0x42 = true := by decide
theorem test_fdivs_trap : floats (.fdivs 0 1 2) 0x01000000 0x3F800000 0 0 0x01006002 = true := by decide
/-- F15, F16, F17. -/
theorem test_fsmuld : after (exec (.fsmuld 0 1 2) (sf 0 0x3FC00000 0x40100000)) (fun t =>
    readD 0 t == 0x400B000000000000) = true := by decide
set_option maxRecDepth 20000 in
theorem test_fsqrts : floats (.fsqrts 0 2) 0 0 0x40000000 0x3FB504F3 0x21 = true := by decide
set_option maxRecDepth 20000 in
theorem test_fsqrtd : doubles (.fsqrtd 0 4) 0 0x4002000000000000 0x3FF8000000000000 0 = true := by decide
/-- F9, F13. -/
theorem test_fdtos : after (exec (.fdtos 0 4) (sd 0 0x380FFFFFF0000000)) (fun t =>
    readF 0 t == 0x00800000 && fsrWord t == 0xA5) = true := by decide
theorem test_fstod : after (exec (.fstod 0 2) (sf 0 0 0x7F800001)) (fun t => readD 0 t == 0x7FF8000020000000) = true := by
  decide
/-- F19, F21; D4 for the double. -/
theorem test_fstoi : floats (.fstoi 0 2) 0 0 0xC0700000 0xFFFFFFFD 0x21 = true := by decide
theorem test_fstoi_nan : floats (.fstoi 0 2) 0 0 0xFFC00000 0x80000000 0x210 = true := by decide
theorem test_fdtoi : after (exec (.fdtoi 0 4) (sd 0 0xC00E000000000000)) (fun t => readF 0 t == 0xFFFFFFFD) = true := by
  decide
/-- F24, F26. -/
theorem test_fitos : floats (.fitos 0 2) 0 0 0x01000001 0x4B800000 0x21 = true := by decide
theorem test_fitod : after (exec (.fitod 0 2) (sf 0 0 0x7FFFFFFF)) (fun t => readD 0 t == 0x41DFFFFFFFC00000) = true := by
  decide
/-- F27. -/
theorem test_moves : (floats (.fmovs 0 2) 0 0 0xFF800001 0xFF800001 0 && floats (.fnegs 0 2) 0 0 0xFF800001 0x7F800001 0 &&
    floats (.fabss 0 2) 0 0 0xFF800001 0x7F800001 0) = true := by decide
/-- F29, F31, F32; the doubles by R593, R595. -/
theorem test_fcmps : (floats (.fcmps 1 2) 0 0x40000000 0x3F800000 0 0x800 &&
    floats (.fcmps 1 2) 0 0x7FC00000 0x3F800000 0 0xC00) = true := by decide
theorem test_fcmpes : floats (.fcmpes 1 2) 0 0x7FC00000 0x3F800000 0 0xE10 = true := by decide
theorem test_fcmpd : doubles (.fcmpd 2 4) 0x3FF8000000000000 0x4002000000000000 0 0x400 = true := by decide
theorem test_fcmped : doubles (.fcmped 2 4) 0x8000000000000000 0 0 0 = true := by decide
/-- F40, step 1, and the other unimplemented operates (R612, R613). -/
theorem test_unimplemented : (unimplementedFpops 8 0 4 0x1FF).all (fun i => after (exec i (sf 0 0 0)) fun t =>
    t.fsr.ftt == 3 && t.fpMode == .exceptionPending && t.fq == [(0x1000, encode i)] && !t.trapped) = true := by decide
/-- F40, step 3. -/
theorem test_pending_trap : after (exec (.fmovs 2 1) { sf 0 0 0 with fpMode := .exceptionPending, fq := [(0x3010, 0x91A00864)] })
    (fun t => psrWord t.psr == 0x400010C7 && t.pc == 0x4080 && t.fpMode == .exception && readReg 17 t == 0x1000) = true := by
  decide

/-- %f2, %f3, EF = 1 over the memory of `sm`. -/
def smf (bytes : List Byte) (a b : Word) (little : Bool) : State := writeF 3 b (writeF 2 a (sm bytes 0 0 little))

/-- M9, M10. -/
theorem test_lddf : (after (exec (.lddf 2 1 (.imm 0)) (smf sample 0 0 true)) (fun t => readD 2 t == 0xF7E6D5C4B3A29180) &&
    after (exec (.lddf 2 1 (.imm 0)) (smf sample 0 0 false)) (fun t => readD 2 t == 0x8091A2B3C4D5E6F7)) = true := by decide
theorem test_lddf_odd : after (exec (.lddf 3 1 (.imm 0)) (smf sample 0 0 false)) (fun t =>
    readD 2 t == 0x8091A2B3C4D5E6F7 && t.fsr.ftt == 0 && !t.trapped) = true := by decide
theorem test_ldf : after (exec (.ldf 2 1 (.imm 0)) (smf sample 0 0 true)) (fun t => readF 2 t == 0xB3A29180) = true := by
  decide
/-- R397: ver, ftt and qne are kept. -/
theorem test_ldfsr : after (exec (.ldfsr 0 1 (.imm 0)) { smf (List.replicate 8 0xFF) 0 0 false with
    fsr := { s0.fsr with ftt := 3 } }) (fun t => fsrWord t == 0xCFC0CFFF) = true := by decide
/-- M15, and a single. -/
theorem test_stdf : after (exec (.stdf 2 1 (.imm 0)) (smf zeros 0x00112233 0x44556677 true)) (fun t =>
    Memory.readBytes t.mem 0x6000 8 == [0x77, 0x66, 0x55, 0x44, 0x33, 0x22, 0x11, 0]) = true := by decide
theorem test_stf : after (exec (.stf 2 1 (.imm 0)) (smf zeros 0x00112233 0 true)) (fun t =>
    Memory.readBytes t.mem 0x6000 8 == [0x33, 0x22, 0x11, 0, 0, 0, 0, 0]) = true := by decide
/-- F40, steps 4 to 6; M16. -/
theorem test_stfsr : after (exec (.stfsr 0 1 (.imm 0)) { smf zeros 0 0 false with
    fsr := { s0.fsr with ftt := 3 }, fq := [(0x3010, 0x91A00864)], fpMode := .exception }) (fun t =>
      Memory.readBytes t.mem 0x6000 4 == [0, 0, 0xE0, 0] && t.fsr.ftt == 0) = true := by decide
theorem test_stdfq : after (exec (.stdfq 0 1 (.imm 0)) { smf zeros 0 0 true with
    fq := [(0x3010, 0x91A00864)], fpMode := .exception }) (fun t =>
      Memory.readBytes t.mem 0x6000 8 == [0x10, 0x30, 0, 0, 0x64, 0x08, 0xA0, 0x91] && t.fq == [] && t.fpMode == .execute) =
    true := by decide

/-! ## MMU and monitor -/

def put (a : Nat) (bs : List Byte) (s : State) : State := { s with mem := Memory.writeBytes s.mem a bs }

/-- T1 to T4: S0 with the MMU on and the tables of va 0x12345678, whose PTE is given; %g1 = 0x12345678. -/
def tables (pte : List Byte) : State :=
  put 0x40000C [0, 4, 0x10, 1] (put 0x410048 [0, 4, 0x20, 0x11] (put 0x420134 [0, 4, 0x30, 0x21] (put 0x430214 pte
    { s2 0x12345678 0 with mmu := { s0.mmu with ctp := 0x10000, ctx := 3, cntl := { s0.mmu.cntl with en := true } } })))

/-- A load or store of va, its page at 0x8_0ABC_D000. -/
def loadReq (user : Bool) : Request := { va := 0x12345678, kind := .load, instr := false, user := user }
def storeReq (user : Bool) : Request := { va := 0x12345678, kind := .store, instr := false, user := user }

/-- Where the access goes, and the PTE after it. -/
def finds (q : Request) (s : State) (t : Target) (pte : List Byte) : Bool :=
  match dataTarget q s with
  | .ok (some u) v => u == t && Memory.readBytes v.mem 0x430214 4 == pte && v.mmu.dtlb.toList.any (fun e =>
      e.v && e.vtag == 0x12345 && e.ctx == 3 && e.level == 3 && e.rbo == t.rbo && e.ppn == 0x80ABCD)
  | _ => false

/-- The access traps data_access_exception with this FT and L. -/
def denies (q : Request) (s : State) (ft : BitVec 3) (l : BitVec 2) : Bool :=
  match dataTarget q s with
  | .trap tt v => tt == 0x09 && v.mmu.fsr.ftype == ft && v.mmu.fsr.level == l && v.mmu.fsr.fav && v.mmu.far == 0x12345678
  | _ => false

/-- R180: the walk fills an entry nothing chooses, so a test locks all entries but one. -/
def oneFree (s : State) : State :=
  { s with mmu := { s.mmu with
      itlb := (mapVec (fun e : TlbEntry => { e with lock := true, v := true, ctx := 9, level := 3 }) s.mmu.itlb).set 5 s.mmu.itlb[5]
      dtlb := (mapVec (fun e : TlbEntry => { e with lock := true, v := true, ctx := 9, level := 3 }) s.mmu.dtlb).set 5 s.mmu.dtlb[5] } }

/-- T5 to T7. -/
theorem test_walk_load : finds (loadReq false) (oneFree (tables [0x80, 0xAB, 0xCD, 0x8E])) { pa := 0x80ABCD678, rbo := false }
    [0x80, 0xAB, 0xCD, 0xAE] = true := by decide
theorem test_walk_store : finds (storeReq false) (oneFree (tables [0x80, 0xAB, 0xCD, 0x8E])) { pa := 0x80ABCD678, rbo := false }
    [0x80, 0xAB, 0xCD, 0xEE] = true := by decide
theorem test_walk_rbo : finds (loadReq false) (oneFree (tables [0x80, 0xAB, 0xCD, 0x8F])) { pa := 0x80ABCD678, rbo := true }
    [0x80, 0xAB, 0xCD, 0xAF] = true := by decide
/-- T9 to T11. -/
theorem test_walk_faults : (denies (loadReq false) (tables [0, 0, 0, 0]) 1 3 &&
    denies (storeReq true) (tables [0x80, 0xAB, 0xCD, 0x82]) 2 3 &&
    denies (loadReq true) (tables [0x80, 0xAB, 0xCD, 0x9E]) 3 3) = true := by decide
/-- T12. -/
theorem test_fetch_fault : (match fetchTarget { tables [0x80, 0xAB, 0xCD, 0x86] with pc := 0x12345678 } with
    | .trap tt v => tt == 0x01 && v.mmu.fsr.ftype == 2 && !v.mmu.fsr.fav && v.mmu.far == 0
    | _ => false) = true := by decide
/-- T19 and R656. -/
theorem test_probe : ([(0x12345000, 0x80ABCD8E), (0x12345100, 0x00043021), (0x12345200, 0x00042011),
    (0x12345300, 0x00041001)] : List (Word × Word)).all (fun p => after (exec (.lda 2 1 false 3 0)
      (writeReg 1 p.1 (tables [0x80, 0xAB, 0xCD, 0x8E]))) fun t => readReg 2 t == p.2 && t.mem.length == 13) = true := by decide
theorem test_probe_traps : trapsWith 0x09 (exec (.lda 2 1 false 3 0) (writeReg 1 0x12345500 (tables [0, 0, 0, 0]))) = true := by
  decide

/-- An entry of context 3 for page 0x12345. -/
def entry (acc : BitVec 3) (level : BitVec 2) : TlbEntry :=
  { vtag := 0x12345, ctx := 3, ppn := 0x80ABCD, c := true, m := false, v := true, acc := acc, level := level, rbo := false,
    lock := true }

/-- S0 with that entry in D-TLB entry 5, MCTX = 3 and %g1. -/
def withEntry (e : TlbEntry) (a : Word) : State :=
  let s := s2 a 0
  { s with mmu := { s.mmu with
      ctx := 3, dtlb := s.mmu.dtlb.set 5 e, ptp0 := { ptr := 1, valid := 1 }, iptp2 := { ptr := 1, valid := 1, tag := 0 } } }

/-- What is valid after a flush: the entry, PTP0, I_PTP2. -/
def valid (e : TlbEntry) (a : Word) : Option (Bool × Bool × Bool) :=
  match exec (.sta 0 1 false 3 0) (withEntry e a) with
  | .next t => some (t.mmu.dtlb[5].v, t.mmu.ptp0.valid == 1, t.mmu.iptp2.valid == 1)
  | _ => none

/-- T13 to T18, D41. -/
theorem test_flush_mmu : (valid (entry 3 3) 0x12345000 == some (false, true, true) &&
    valid (entry 3 2) 0x12345000 == some (true, true, true) && valid (entry 3 2) 0x12340100 == some (false, true, false) &&
    valid (entry 3 1) 0x12000200 == some (false, true, false) && valid (entry 3 3) 0x300 == some (false, false, false) &&
    valid (entry 6 3) 0x300 == some (true, false, false) && valid (entry 6 3) 0x400 == some (false, false, false) &&
    valid (entry 3 3) 0x500 == some (true, true, true)) = true := by decide
/-- T20: a bypass space with a high address nibble. -/
theorem test_bypass : after (exec (.lda 2 1 false 0x2F 0) (put 0xFF0000010 [1, 2, 3, 4] (s2 0xF0000010 0))) (fun t =>
    readReg 2 t == 0x01020304) = true := by decide
/-- T23. -/
theorem test_mmu_registers : (after (exec (.sta 2 1 false 4 0) (s2 0x100 0xFFFFFFFF)) (fun t => t.mmu.ctp == 0x3FFFFFFF) &&
    after (exec (.lda 3 1 false 4 0) { s2 0x200 0 with mmu := { s0.mmu with ctx := 3 } }) (fun t => readReg 3 t == 3) &&
    after (exec (.lda 3 1 false 4 0) { s2 0x300 0 with mmu := { s0.mmu with fsr := { s0.mmu.fsr with ftype := 2 } } }) (fun t =>
      t.mmu.fsr == s0.mmu.fsr)) = true := by decide
/-- T24, R133. -/
theorem test_absent_registers : (trapsWith 0x09 (exec (.lda 2 1 false 4 0) (s2 0x1500 0)) &&
    trapsWith 0x09 (exec (.sta 2 1 false 0x50 0) (s2 0 0))) = true := by decide
/-- S0 after both flash clears. -/
def cleared (a b : Word) : State := flashClear (flashClearInstr (s2 a b))

/-- T25, with the caches cleared; R72, R73: before that a store that switches one on is refused. -/
theorem test_mcntl : enablesUncleared 0x00017782 (cleared 0 0) = false ∧ (writeMcntl 0x00017782 s0).mmu.cntl =
    { tc := true, ac := false, se := true, bt := true, pe := true, sb := true, ie := true, de := true, pso := true,
      nf := true, en := false } := ⟨by simp [enablesUncleared, cleared, flashClearInstr]; exact fun _ => rfl, by decide⟩
theorem test_enable_uncleared : ([0x100, 0x200] : List Word).all (fun v =>
    refusedWith .cacheNotCleared (exec (.sta 2 1 false 4 0) (s2 0 v))) = true := by decide
theorem test_flash_clears : (∃ t, exec (.sta 0 0 false 0x36 0) s0 = .next t ∧ t.icacheCleared = true) ∧
    ∃ t, exec (.sta 0 0 false 0x37 0) s0 = .next t ∧ dcacheCleared t = true :=
  ⟨⟨_, rfl, rfl⟩, _, rfl, dcacheCleared_flashClear s0⟩
/-- R705: of a stored tag V and Paddr are read back, and zeros elsewhere. -/
theorem test_dtag : loadDtag 0 (storeDtag 0 0xFFFFFFFFFF123456 s0) =
    .ok 0x0100000000123456 (storeDtag 0 0xFFFFFFFFFF123456 s0) := by
  have h : s0.mmu.cntl.de = false := rfl
  simp [loadDtag, h, storeDtag, dtagWord]
/-- R876: the store that would lock the last entry is refused. -/
theorem test_last_lock : refusedWith .tlbAllLocked (exec (.sta 2 1 false 6 0)
    { s2 0x5300 1 with mmu := (oneFree { s0 with mmu := { s0.mmu with
        dtlb := s0.mmu.dtlb.set 5 (entry 3 3) } }).mmu }) = true := by decide
/-- R876: with every entry locked a miss deadlocks, also where the walk would fault. -/
theorem test_deadlock : (match dataTarget (loadReq false) { tables [0, 0, 0, 0] with
      mmu := { (tables []).mmu with dtlb := mapVec (fun e : TlbEntry => { e with lock := true }) s0.mmu.dtlb } } with
    | .fault e => e == .tlbDeadlock
    | _ => false) = true := by decide
/-- CTRC, ACTION (with MIX) and BKC: what is stored, and what is refused (R723, R734, R738). -/
theorem test_monitor_stores : (after (exec (.sta 2 0 false 0x4A 0) (s2 0 0x01600000)) (fun t =>
      t.mon.ctrc.selA == 1 && t.mon.ctrc.ka && t.mon.ctrc.aen && !t.mon.ctrc.ben) &&
    after (exec (.stda 2 0 false 0x4C 0) (writeReg 3 0xC04 s0)) (fun t => t.mon.action == 0xC04) &&
    refusedWith .counterSelect (exec (.sta 2 0 false 0x4A 0) (s2 0 0x02000000)) &&
    after (exec (.stda 2 0 false 0x4C 0) (writeReg 3 0xFFFFFFFF s0)) (fun t => t.mon.action == 0x1FFF) &&
    after (exec (.stda 2 1 false 0x38 0) (writeReg 3 0x1F (s2 0x200 0))) (fun t => t.mon.bkc == 0x1F) &&
    refusedWith .physicalBreakpoint (exec (.stda 2 1 false 0x38 0) (writeReg 3 0x20 (s2 0x200 0)))) = true := by decide

/-- S0 with BKC, a breakpoint at 0x6000, and both breakpoints enabled in ACTION at level 4. -/
def watching (bkc : BitVec 7) : State :=
  { s0 with mon := { s0.mon with bkc := bkc, bkv := 0x6000, action := 0x40A } }

def watchedReq : Request := { va := 0x6000, kind := .load, instr := false, user := false }

/-- R784, R810: a load at the data breakpoint requests the monitor's interrupt; with DBFEN it faults. -/
theorem test_data_breakpoint :
    dataTarget watchedReq (watching 2) = .ok (some { pa := 0x6000, rbo := false }) (requestData (watching 2)) ∧
    (requestData (watching 2)).mon.pendD = true ∧
    dataTarget watchedReq (watching 6) = .trap 0x09 (recordBreak true watchedReq (watching 6)) := by
  have page (b) : dataPage watchedReq (watching b) = .ok (some { pa := 0x6000, rbo := false }) (watching b) := rfl
  have hit (b : BitVec 7) (h : b.getLsbD 1 = true) : dataBreak false 0x6000 (watching b) = true := by
    simp [dataBreak, breakMatch, watching, h]
  refine ⟨?_, by decide, ?_⟩ <;>
    · unfold dataTarget
      rw [page, andThen_ok, show (watchedReq.kind == .store) = false from rfl, show watchedReq.va = 0x6000 from rfl,
        hit _ (by decide)]
      rfl

/-- The same with the instruction at 0x6000 next. -/
def watchedCode (bkc : BitVec 7) : State := noBoot { watching bkc with pc := 0x6000 }

/-- The same breakpoint on fetches, in a space that CSPACE selects. -/
theorem test_code_breakpoint (h : Config.codeSpaceWatched false true = true) :
    fetchTarget (watchedCode 8) = .ok 0x6000 (requestCode (watchedCode 8)) ∧
    (requestCode (watchedCode 8)).mon.pendC = true ∧
    fetchTarget (watchedCode 0x18) =
      .trap 0x01 (recordBreak false (fetchRequest 0x6000 (watchedCode 0x18)) (watchedCode 0x18)) := by
  have page (b) : fetchPage 0x6000 (watchedCode b) = .ok 0x6000 (watchedCode b) := rfl
  have hit (b : BitVec 7) (h3 : b.getLsbD 3 = true) (h6 : b.getLsbD 6 = false) : codeBreak (watchedCode b) = true := by
    simp only [codeBreak, breakMatch, watchedCode, watching, noBoot, h3, h6, show s0.psr.s = true from rfl, h]
    simp
  refine ⟨?_, by decide, ?_⟩ <;>
    · unfold fetchTarget
      rw [show (watchedCode _).pc = 0x6000 from rfl, page, andThen_ok, hit _ (by decide) (by decide)]
      rfl

/-- R334: a divide by 0 traps and the request of its code breakpoint stays pending. -/
def dividing : State := ({ sy 0 5 0 with mon := { s0.mon with pendC := true, action := 0x408 } } : State).withFetchWord 32 0x86704002
theorem test_divide_priority : (trapsWith 0x2A (step dividing) && after (step dividing) (fun t => t.mon.pendC)) = true := by
  decide
/-- T27 to T29; the LVL code is not known, so T26 is not tested. -/
theorem test_tlb_diagnostics : (after (exec (.lda 2 1 false 6 0) (withEntry { entry 3 3 with rbo := true, lock := false } 0x5300))
      (fun t => readReg 2 t == 2) &&
    after (exec (.sta 2 1 false 6 0) (s2 0x2500 0xFFFFFFF1)) (fun t => ptp2Word t.mmu.dptp2[2] == 0xFFFFFFF1) &&
    after (exec (.sta 2 1 false 5 0) (s2 0x33200 0x80ABCDEC)) (fun t =>
      t.mmu.itlb[3].ppn == 0x80ABCD && !t.mmu.itlb[3].m && t.mmu.itlb[3].v && t.mmu.itlb[3].acc == 3)) = true := by decide
/-- Every stop is by name: a device, and the registers no source describes. -/
theorem test_refusals : (match exec (.lda 2 1 false 2 0) s0, exec (.lda 2 1 false 0x0C 0) s0,
      exec (.ldstuba 2 1 false 0x40 0) s0, exec (.lduba 2 1 false 0x40 0) s0 with
    | .refused a, .refused b, .refused c, .refused d =>
      a == .mxccControlSpace && b == .cacheDiagnostic && c == .atomicRegister && d == .asiWidth
    | _, _, _, _ => false) = true := by decide

/-- S0 with the counters set as K3 and K4 say. -/
def counters (a : Word) : State :=
  { s0 with mon := { s0.mon with ctrc := ctrcOfWord 0x01600000, action := 0xC04, counterA := a } }

/-- K1, K6. -/
theorem test_kernel : after (exec (.sta 2 0 false 0x40 0) (s2 0 0xA5A5A5A5)) (fun t => t.mon.kernel == 0xA5A5A5A5) = true := by
  decide
theorem test_ctrs : after (exec (.lda 2 0 false 0x4B 0) { s0 with mon := { s0.mon with zacis := true } }) (fun t =>
    readReg 2 t == 2 && !t.mon.zacis) = true := by decide
/-- K5: i3, and the interrupt before i4. -/
theorem test_counter : after (step ((counters 1).withFetchWord 32 0x01000000)) (fun t =>
    t.mon.counterA == 0 && t.mon.pendA && t.pc == 0x1004) = true := by decide
theorem test_monitor_interrupt : after (step (({ counters 0 with mon := { (counters 0).mon with pendA := true } } : State).withFetchWord 32 0x01000000)) (fun t =>
    t.tbr.tt == 0x1C && readReg 17 t == 0x1000 && t.mon.zacis && !t.mon.pendA) = true := by decide

/-! ## The step -/

/-- The first instruction after reset: `add %g0,5,%g1`. -/
theorem test_first_instruction : after (step (State.reset.withFetchWord 32 0x82002005)) (fun t =>
    t.pc == 4 && t.npc == 8 && readReg 1 t == 5) = true := by decide
/-- An instruction word is big-endian whatever PSR.DE is (R146). -/
theorem test_fetch_order : after (step (put 0x1000 [0x82, 0x00, 0x20, 0x05] (sm zeros 0 0 true |> fun s =>
    { s with mmu := { s.mmu with cntl := { s.mmu.cntl with bt := false } } }))) (fun t => readReg 1 t == 5) = true := by decide
/-- R542. -/
theorem test_unallocated : trapsWith 0x02 (step (s0.withFetchWord 32 0xC0400000)) = true := by decide
/-- X6 to X11. -/
theorem test_interrupts : ([(0, 0, 0x20, false), (1, 0, 0x20, true), (5, 5, 0x20, false), (6, 5, 0x20, true), (14, 15, 0x20, false),
    (15, 15, 0x20, true), (15, 0, 0, false)] : List (BitVec 4 × BitVec 4 × Word × Bool)).all (fun p =>
      interrupted { s0 with psr := { psrOfWord p.2.2.1 with pil := p.2.1 }, irl := [p.1] } == p.2.2.2) = true := by decide
/-- X1. -/
theorem test_trap_entry : (let t := takeTrap 0x85 { s0 with psr := psrOfWord 0x40001027, pc := 0x3004, npc := 0x3008 }
    psrWord t.psr == 0x40001086 && readReg 17 t == 0x3004 && readReg 18 t == 0x3008 && tbrWord t.tbr == 0x4850 &&
      t.pc == 0x4850 && t.npc == 0x4854) = true := by decide
/-- R797, X4. -/
theorem test_error_mode : (match step { s0 with errorMode := true } with
    | .fault e => e == .errorMode
    | _ => false) = true := by decide

/-! ## Witnesses: for every obligation with hypotheses, values that meet them, for each of its clauses

A clause that only splits on a value (taken or not, masked or not) has a witness on each side. -/

/-- What holds after an instruction holds of every state it can answer. -/
theorem after_forall {r : Result} {p : State → Bool} (h : after r p = true) (t : State) (e : r = .next t) : p t = true := by
  subst e; exact h

theorem test_witness_DecodeEncodeRoundTrip : (Instr.wrasr 1 31 (.imm 0x1FFF)).WellFormed := by decide

theorem test_witness_DecodedIsWellFormed : decodeWord 0xFFF80000 = .error .reservedBits ∨
    decodeWord 0x86004002 = .ok (.add 3 1 (.reg 2)) := .inr rfl

/-- One word of each of the three groups, as the next instruction. -/
theorem test_witness_UnallocatedEncodingsTrap :
    (fieldOp 0x01400000 = 0 ∧ fieldOp2 0x01400000 ∈ ([1, 3, 5] : List (BitVec 3))) ∧
    (fieldOp 0x81F80000 = 2 ∧ fieldOp3 0x81F80000 = 0x3F) ∧ (fieldOp 0xC1F80000 = 3 ∧ fieldOp3 0xC1F80000 = 0x3F) ∧
    (∀ w ∈ ([0x01400000, 0x81F80000, 0xC1F80000] : List Nat), ∃ pa, fetchTarget (s0.withFetchWord 32 w) =
      .ok pa (s0.withFetchWord 32 w) ∧ (fetchWord pa (s0.withFetchWord 32 w)).1 = BitVec.ofNat 32 w) := by
  refine ⟨by decide, by decide, by decide, ?_⟩
  intro w hw
  simp only [List.mem_cons, List.not_mem_nil, or_false] at hw
  rcases hw with rfl | rfl | rfl <;> exact ⟨0x000001000, rfl, by decide⟩

/-- A NOP to run, no interrupt, counters off and nothing stale. -/
def atNop : State := s0.withFetchWord 32 0x01000000

/-- The access traps. -/
def trapped {α : Type} (r : Res α) : Bool :=
  match r with
  | .trap _ _ => true
  | _ => false

theorem trapped_exists {α : Type} {r : Res α} (h : trapped r = true) : ∃ tt t, r = .trap tt t := by
  cases r <;> simp [trapped] at h ⊢

/-- A NOP fetched with no replaced word to see, and with one that FLUSH of its doubleword has ended; a word with a reserved bit
set; and a fetch that traps (T12). -/
theorem test_witness_StepRunsDecodedInstruction : (atNop.errorMode = false ∧ interrupted atNop = false ∧
      fetchTarget (beginStep atNop) = .ok 0x000001000 (beginStep atNop) ∧
      decodeWord (fetchWord 0x000001000 (beginStep atNop)).1 = .ok .nop ∧ CountersOff atNop) ∧
    (let s : State := { atNop with stale := [{ pa := 0x400, old := 1, cleared := [0x200] }] }
     fetchTarget (beginStep s) = .ok 0x000001000 (beginStep s) ∧
       ∀ e ∈ (beginStep s).stale, ¬ SeenBy 0x000001000 s.pc e) ∧
    SeenBy 0x000001000 atNop.pc { pa := 0x400, old := 1, cleared := [0x201] } ∧
    (let s := s0.withFetchWord 32 0x81800FE0
     interrupted s = false ∧ fetchTarget (beginStep s) = .ok 0x000001000 (beginStep s) ∧
       decodeWord (fetchWord 0x000001000 (beginStep s)).1 = .error .reservedBits) ∧
    (let s : State := { tables [0x80, 0xAB, 0xCD, 0x86] with pc := 0x12345678 }
     s.errorMode = false ∧ interrupted s = false ∧ ∃ tt t, fetchTarget (beginStep s) = .trap tt t) := by
  refine ⟨⟨rfl, by decide, rfl, by decide, rfl, rfl⟩, ⟨rfl, by unfold SeenBy; decide⟩, by unfold SeenBy; decide,
    ⟨by decide, rfl, by decide⟩, rfl, by decide, trapped_exists (by decide)⟩

/-- An interrupt accepted before a word with a reserved bit set is taken (log 52); without one the word is refused (R247). -/
theorem test_interrupt_before_reserved : (let s := s0.withFetchWord 32 0x81800FE0
    refusedWith .reservedBits (step s) && trapsWith 0x1F (step { s with irl := [15] })) = true := by decide

/-- Level 15 with PIL = 15, before a NOP, from outside and above the monitor's level; the monitor's interrupt; and an
interrupt before an instruction that traps. -/
theorem test_witness_InterruptTaken :
    (let s : State := { atNop with irl := [15], psr := { s0.psr with pil := 15 }, mon := { s0.mon with pendA := true, action := 0xC04 } }
     s.errorMode = false ∧ s.psr.et = true ∧ requestLevel s = 15 ∧ (monitorLevel s).toNat < (externalLevel s).toNat ∧
       ∀ t, runInstruction (beginStep s) = .next t → t.trapped = false) ∧
    (let s : State := { atNop with mon := { s0.mon with pendA := true, action := 0xC04 } }
     requestLevel s ≠ 0 ∧ s.psr.pil.toNat < (requestLevel s).toNat ∧
       (externalLevel s).toNat ≤ (monitorLevel s).toNat) ∧
    (let s : State := { s0.withFetchWord 32 0 with irl := [1] }
     s.errorMode = false ∧ s.psr.et = true ∧ requestLevel s ≠ 0 ∧ s.psr.pil.toNat < (requestLevel s).toNat ∧
       ∃ t, runInstruction (beginStep s) = .next t ∧ t.trapped = true) := by
  refine ⟨⟨rfl, rfl, by decide, by decide, fun t h => ?_⟩, by decide, rfl, rfl, by decide, by decide, _, rfl, rfl⟩
  have := after_forall (p := fun t => !t.trapped) (by decide) t h
  simpa using this

/-- R784: at the step from 1 to 0 with the level 0, or with the event not enabled, the event is lost and the counter counts. -/
theorem test_lost_event : ∀ action ∈ ([0x004, 0xC00] : List (BitVec 13)),
    after (step (({ counters 1 with mon := { (counters 1).mon with action := action } } : State).withFetchWord 32 0x01000000))
      (fun t => t.mon.counterA == 0 && !t.mon.pendA) = true := by decide

/-- Both counters at 1, enabled in supervisor mode, and neither; the level 0 and the event not enabled; an instruction that
writes CounterA. -/
theorem test_witness_InstructionCountDecrements :
    (let s : State := ({ counters 1 with mon := { (counters 1).mon with
        ctrc := ctrcOfWord 0x01600160, action := 0xC05, counterB := 1 } } : State).withFetchWord 32 0x01000000
     s.errorMode = false ∧ interrupted s = false ∧ s.mon.ctrc.aen = true ∧ s.mon.ctrc.selA = 1 ∧ s.mon.ctrc.ben = true ∧
      s.mon.ctrc.selB = 1 ∧ s.psr.s = true ∧ s.mon.ctrc.ka = true ∧ s.mon.ctrc.kb = true ∧
      ∃ t, runInstruction (beginStep s) = .next t ∧ t.trapped = false ∧ t.wroteA = false ∧ t.wroteB = false ∧
        t.mon.counterA = 1 ∧ t.mon.counterB = 1 ∧ intA t.mon.action = true ∧ intB t.mon.action = true ∧
        bcipl t.mon.action ≠ 0) ∧
    (atNop.mon.ctrc.aen = false ∧ atNop.mon.ctrc.ben = false) ∧
    (∀ action ∈ ([0x004, 0xC00] : List (BitVec 13)),
      let s := ({ counters 1 with mon := { (counters 1).mon with action := action } } : State).withFetchWord 32 0x01000000
      s.errorMode = false ∧ interrupted s = false ∧ s.mon.ctrc.aen = true ∧ s.mon.ctrc.selA = 1 ∧ s.mon.ctrc.ka = true ∧
        after (runInstruction (beginStep s)) (fun t => !t.trapped && !t.wroteA && t.mon.counterA == 1 &&
          (!intA t.mon.action || bcipl t.mon.action == 0)) = true) ∧
    (let s := (counters 1).withFetchWord 32 0xC0A00900
     s.errorMode = false ∧ interrupted s = false ∧ s.mon.ctrc.aen = true ∧
      after (runInstruction (beginStep s)) (fun t => !t.trapped && t.wroteA) = true) :=
  ⟨⟨rfl, by decide, by decide, by decide, by decide, by decide, rfl, by decide, by decide, _, rfl, rfl, rfl, rfl, by decide,
    by decide, by decide, by decide, by decide⟩, ⟨rfl, rfl⟩, by decide, by decide⟩

/-- Right after reset, with a NOP to run. -/
theorem test_witness_StepKeepsInvariant :
    Inv (State.reset.withFetchWord 32 0x01000000) ∧ ∃ t, step (State.reset.withFetchWord 32 0x01000000) = .next t :=
  ⟨⟨by decide, by decide, by decide, by decide, by decide, by decide, by decide, BitVec.zero_and, by decide, by decide, by decide,
    by decide, by decide, by decide, by decide, by decide, by decide, by decide, by decide, by decide⟩, _, rfl⟩

/-- Counts 0 and 31. -/
theorem test_witness_ShiftResults : (1 : Word).toNat = (1 : Word).toNat * 2 ^ 0 % 2 ^ 32 ∧
    (0x80000000 : Word).toNat = (3 : Word).toNat * 2 ^ 31 % 2 ^ 32 ∧
    (1 : Word).toNat = (0x80000000 : Word).toNat / 2 ^ 31 ∧ (0xFFFFFFFF : Word).toInt = (0x80000000 : Word).toInt / 2 ^ 31 := by
  decide

theorem test_witness_SethiAndNop : (0xFFFFFC00 : Word).toNat = (0x3FFFFF : BitVec 22).toNat * 1024 := by decide

/-- A tag bit of each operand, an overflow at the boundary, and neither. -/
theorem test_witness_TaggedArithmetic : (5 : Word).toNat % 4 ≠ 0 ∧
    (2 : Int) ^ 31 ≤ (0x7FFFFFFC : Word).toInt + (4 : Word).toInt ∧
    ¬ ((((0x7FFFFFF8 : Word).toInt + (4 : Word).toInt < -2 ^ 31 ∨
      (2 : Int) ^ 31 ≤ (0x7FFFFFF8 : Word).toInt + (4 : Word).toInt)) ∨ (0x7FFFFFF8 : Word).toNat % 4 ≠ 0 ∨
      (4 : Word).toNat % 4 ≠ 0) := by decide

/-- N = V and N ≠ V. -/
theorem test_witness_MultiplyStep :
    (0x40000000 : Word).toNat = (readReg 1 (s2 0x80000001 7)).toNat / 2 +
      (if (s2 0x80000001 7).psr.n = (s2 0x80000001 7).psr.v then 0 else 2 ^ 31) ∧
    (0xC0000000 : Word).toNat = (readReg 1 (withIcc 8 (s2 0x80000001 7))).toNat / 2 +
      (if (withIcc 8 (s2 0x80000001 7)).psr.n = (withIcc 8 (s2 0x80000001 7)).psr.v then 0 else 2 ^ 31) := by decide

/-- The largest dividend by 1, and by 2^32 - 1. -/
theorem test_witness_UnsignedDivide : (0xFFFFF : Word).toNat * 2 ^ 32 + (0xFFFFFFFF : Word).toNat < 2 ^ 52 ∧
    (1 : Word).toNat ≠ 0 ∧ (0xFFFFFFFF : Word).toNat =
      min (((sy 0xFFFFF 0xFFFFFFFF 1).y.toNat * 2 ^ 32 + (readReg 1 (sy 0xFFFFF 0xFFFFFFFF 1)).toNat) /
        (opnd2 (.reg 2) (sy 0xFFFFF 0xFFFFFFFF 1)).toNat) (2 ^ 32 - 1) ∧
    (0x00100000 : Word).toNat =
      min (((sy 0xFFFFF 0xFFFFFFFF 0xFFFFFFFF).y.toNat * 2 ^ 32 +
        (readReg 1 (sy 0xFFFFF 0xFFFFFFFF 0xFFFFFFFF)).toNat) /
        (opnd2 (.reg 2) (sy 0xFFFFF 0xFFFFFFFF 0xFFFFFFFF)).toNat) (2 ^ 32 - 1) := by decide

/-- The largest and the smallest dividend. -/
theorem test_witness_SignedDivide : ∀ q ∈ ([(sy 0x7FFFF 0xFFFFFFFF 1, 0x7FFFFFFF), (sy 0xFFF80000 0 1, 0x80000000)] :
    List (State × Word)),
    (q.1.y ++ readReg 1 q.1).toInt < 2 ^ 51 ∧ -2 ^ 51 ≤ (q.1.y ++ readReg 1 q.1).toInt ∧ (opnd2 (.reg 2) q.1).toInt ≠ 0 ∧
      q.2.toInt = max (-2 ^ 31) (min ((q.1.y ++ readReg 1 q.1).toInt.tdiv (opnd2 (.reg 2) q.1).toInt) (2 ^ 31 - 1)) := by
  decide

/-- The dividends just outside the range, and a divisor 0 just inside it; UDIV at pc with a request pending. -/
theorem test_witness_DivideTraps :
    2 ^ 52 ≤ (sy 0x100000 0 1).y.toNat * 2 ^ 32 + (readReg 1 (sy 0x100000 0 1)).toNat ∧
    (sy 0xFFFFF 0xFFFFFFFF 0).y.toNat * 2 ^ 32 + (readReg 1 (sy 0xFFFFF 0xFFFFFFFF 0)).toNat < 2 ^ 52 ∧
    opnd2 (.reg 2) (sy 0xFFFFF 0xFFFFFFFF 0) = 0 ∧
    2 ^ 51 ≤ ((sy 0x80000 0 1).y ++ readReg 1 (sy 0x80000 0 1)).toInt ∧
    ((sy 0xFFF7FFFF 0xFFFFFFFF 1).y ++ readReg 1 (sy 0xFFF7FFFF 0xFFFFFFFF 1)).toInt < -2 ^ 51 ∧
    -2 ^ 51 ≤ ((sy 0xFFF80000 0 0).y ++ readReg 1 (sy 0xFFF80000 0 0)).toInt ∧
    ((sy 0xFFF80000 0 0).y ++ readReg 1 (sy 0xFFF80000 0 0)).toInt < 2 ^ 51 ∧ opnd2 (.reg 2) (sy 0xFFF80000 0 0) = 0 ∧
    dividing.errorMode = false ∧ dividing.psr.et = true ∧ fetchTarget (beginStep dividing) = .ok 0x1000 (beginStep dividing) ∧
    (beginStep dividing).mon.pendC = true ∧
    decodeWord (fetchWord 0x1000 (beginStep dividing)).1 = .ok (.udiv 3 1 (.reg 2)) ∧ opnd2 (.reg 2) dividing = 0 ∧
    dividing.y.toNat * 2 ^ 32 + (readReg 1 dividing).toNat < 2 ^ 52 :=
  ⟨by decide, by decide, by decide, by decide, by decide, by decide, by decide, by decide, rfl, rfl, rfl, rfl, by decide,
    by decide, by decide⟩

/-- Every condition and its complement, with and without a taken branch before. -/
theorem test_witness_IntegerBranches : s0.condTaken = false ∧ ({ s0 with condTaken := true } : State).condTaken = true ∧
    (let p := (withIcc 0b1010 s0).psr
     p.n = true ∧ p.v = true ∧ ¬ p.z = true ∧ ¬ p.c = true ∧ ¬ p.n ≠ p.v) ∧
    (let p := (withIcc 0b1101 s0).psr
     p.z = true ∧ p.c = true ∧ p.n ≠ p.v ∧ ¬ p.v = true) ∧ (let p := (withIcc 0b0001 s0).psr; ¬ p.n = true) := by decide

/-- An FPU that is on, with each of the four relations. -/
theorem test_witness_FloatBranches : ∀ f : BitVec 2,
    FpReady { sf 0 0 0 with fsr := { (sf 0 0 0).fsr with fcc := f } } := fun _ => ⟨rfl, rfl⟩

theorem test_witness_CallAndJump : (readReg 1 (s2 0x3000 0) + opnd2 (.reg 0) (s2 0x3000 0)).toNat % 4 = 0 ∧
    (readReg 1 (s2 0x3000 0) + opnd2 (.imm 0x1FFF) (s2 0x3000 0)).toNat % 4 ≠ 0 ∧ (s2 0x3000 0).condTaken = false := by decide

/-- The four modes; an invalid window and a valid one; a misaligned target and an aligned one. -/
theorem test_witness_ReturnFromTrap : (let s : State := { s0 with psr := psrOfWord 0x20 }; s.psr.et = true ∧ s.psr.s = false) ∧
    (s0.psr.et = true ∧ s0.psr.s = true) ∧
    (let s : State := { s0 with psr := psrOfWord 7 }; s.psr.et = false ∧ s.psr.s = false) ∧
    (let s : State := { s0 with psr := psrOfWord 0x87, wim := 1 }
     s.psr.et = false ∧ s.psr.s = true ∧ s.wim.getLsbD (s.psr.cwp + 1).toNat = true) ∧
    (let s : State := { s0 with psr := psrOfWord 0x87 }
     s.psr.et = false ∧ s.psr.s = true ∧ ¬ s.wim.getLsbD (s.psr.cwp + 1).toNat = true ∧
       (readReg 0 s + opnd2 (.imm 3) s).toNat % 4 ≠ 0 ∧ (readReg 0 s + opnd2 (.imm 4) s).toNat % 4 = 0) := by decide

theorem test_witness_SaveAndRestore : (let s : State := { s0 with wim := 0x80 }; s.wim.getLsbD (s.psr.cwp - 1).toNat = true) ∧
    (let s : State := { s0 with wim := 2 }
     s.wim.getLsbD (s.psr.cwp + 1).toNat = true ∧ s.wim.getLsbD (s.psr.cwp - 1).toNat = false) ∧
    s0.wim.getLsbD (s0.psr.cwp + 1).toNat = false := by decide

/-- Registers at the ends of each group, in windows 7 and 0. -/
theorem test_witness_WindowsOverlap : 24 ≤ (24 : Reg).toNat ∧ 24 ≤ (31 : Reg).toNat ∧
    (16 ≤ (16 : Reg).toNat ∧ (23 : Reg).toNat < 24 ∧ slot 7 16 = slot 7 16 ∧ slot 7 23 = slot 7 23) ∧
    (slot 7 24 = slot 0 8 ∧ (24 : Reg) ≠ 0) ∧ slot 7 24 ≠ slot 0 9 ∧ slot 0 7 ≠ slot 0 8 := by decide

/-- The least and the greatest trap type, by both operand forms, with a condition that holds and one that does not. -/
theorem test_witness_TrapOnCondition :
    (0x80 : TrapType).toNat = 0x80 + ((readReg 1 (s2 0x17D 3)).toNat + (readReg 2 (s2 0x17D 3)).toNat) % 128 ∧
    (0xFF : TrapType).toNat = 0x80 + ((readReg 0 s0).toNat + (0x7F : BitVec 7).toNat) % 128 ∧
    (withIcc 4 s0).psr.z = true ∧ ¬ s0.psr.z = true := by decide

theorem test_witness_CoprocessorDisabled : s0.psr.s = true ∧ ({ s0 with psr := psrOfWord 0x20 } : State).psr.s = false := by decide

theorem test_witness_StateRegisterReads : s0.psr.s = true := rfl

/-- The last window that exists and the first that does not. -/
theorem test_witness_StateRegisterWrites : s0.psr.s = true ∧ (readReg 0 s0 ^^^ opnd2 (.imm 7) s0).toNat % 32 < 8 ∧
    8 ≤ (readReg 0 s0 ^^^ opnd2 (.imm 8) s0).toNat % 32 := by decide

theorem test_witness_PrivilegedInstructionsTrap : ({ s0 with psr := psrOfWord 0x20 } : State).psr.s = false := rfl

/-- Replaced words, the two ends of the doubleword at 0x2000, and its physical doubleword. -/
theorem test_witness_BarrierAndFlush : let s := twoStale
    (0x2000 : Word).toNat / 8 = (readReg 1 s + opnd2 (.imm 3) s).toNat / 8 ∧
    (0x2007 : Word).toNat / 8 = (readReg 1 s + opnd2 (.imm 3) s).toNat / 8 ∧
    (0x2008 : Word).toNat / 8 ≠ (readReg 1 s + opnd2 (.imm 3) s).toNat / 8 ∧ s.stale ≠ [] ∧
    fetchPage (readReg 1 s + opnd2 (.imm 3) s) s = .ok 0x2003 s ∧
    dataPage { va := readReg 1 s + opnd2 (.imm 3) s, kind := .load, instr := false, user := !s.psr.s } s =
      .ok (some { pa := 0x2003, rbo := false }) s :=
  ⟨by decide, by decide, by decide, by decide, rfl, rfl⟩

theorem test_witness_TrapEntry : s0.psr.et = true := rfl

theorem test_witness_ErrorMode : State.reset.psr.et = false := rfl

theorem test_witness_TrapThenReturnResumes : s0.psr.et = true ∧ AlignedWord s0.pc ∧ AlignedWord s0.npc ∧
    s0.wim.getLsbD s0.psr.cwp.toNat = false := ⟨rfl, by decide, by decide, by decide⟩

/-- A user-mode store. -/
theorem test_witness_UserModeChangesNoControlState :
    let s : State := { s2 0x6000 1 with psr := psrOfWord 0x20 }
    s.psr.s = false ∧ s.trapped = false ∧ ∃ t, exec (.st 2 1 (.imm 0)) s = .next t ∧ t.trapped = false :=
  ⟨rfl, rfl, _, rfl, rfl⟩

theorem test_witness_ByteOrderChangedOnlyByWrpsr : (∃ t, exec (.ta 0 (.imm 1)) s0 = .next t) ∧
    ∀ rs1 o, Instr.ta 0 (.imm 1) ≠ .wrpsr rs1 o := ⟨⟨_, rfl⟩, fun _ _ h => by cases h⟩

/-! ### Loads, stores and translation -/

/-- Both forms of an access at 0x6000: in the data space of the mode, and in the bypass space 0x20. -/
theorem test_witness_LoadResults : let s := sm sample 0 0 true
    (ReachesIn 0x0B .load 0x6000 s { pa := 0x6000, rbo := false } s ∧
      AccessForm (.ldd 2 1 (.imm 0)) (.ldda 2 1 false 0x0B 0) 1 0 (.imm 0) 0x0B 0x6000 s (.ldd 2 1 (.imm 0))) ∧
    (ReachesIn 0x20 .load 0x6000 s { pa := 0x6000, rbo := false } s ∧
      AccessForm (.ldd 2 1 (.imm 0)) (.ldda 2 1 false 0x20 0) 1 0 (.imm 0) 0x20 0x6000 s (.ldda 2 1 false 0x20 0)) ∧
    ((0x6002 : Word).toNat % 2 = 0 ∧ (0x6004 : Word).toNat % 4 = 0 ∧ (0x6000 : Word).toNat % 8 = 0) ∧
    (2 : Reg).getLsbD 0 = false :=
  ⟨⟨⟨by decide, rfl⟩, .inl ⟨rfl, rfl, by decide⟩⟩, ⟨⟨by decide, rfl⟩, .inr ⟨rfl, rfl, by decide⟩⟩, by decide, by decide⟩

/-- The same for stores, also at the last doubleword of the address space of a bypass. -/
theorem test_witness_StoreResults : let s := sm sample 0 0 true
    (ReachesIn 0x0B .store 0x6000 s { pa := 0x6000, rbo := false } s ∧ Memory.wf s.mem = true ∧
      AccessForm (.std 2 1 (.imm 0)) (.stda 2 1 false 0x0B 0) 1 0 (.imm 0) 0x0B 0x6000 s (.std 2 1 (.imm 0))) ∧
    (ReachesIn 0x2F .store 0xFFFFFFF8 s0 { pa := 0xFFFFFFFF8, rbo := false } s0 ∧ Memory.wf s0.mem = true ∧
      AccessForm (.std 2 1 (.imm 0)) (.stda 2 4 false 0x2F 0) 4 0 (.imm 0) 0x2F 0xFFFFFFF8 (writeReg 4 0xFFFFFFF8 s0)
        (.stda 2 4 false 0x2F 0)) ∧ (0xFFFFFFF8 : Word).toNat % 8 = 0 ∧ (2 : Reg).getLsbD 0 = false :=
  ⟨⟨⟨by decide, rfl⟩, by decide, .inl ⟨rfl, rfl, by decide⟩⟩, ⟨⟨by decide, rfl⟩, rfl, .inr ⟨rfl, by decide, by decide⟩⟩,
    by decide, by decide⟩

/-- S0 with the MMU on and one entry in D-TLB entry 5. -/
def mapped (e : TlbEntry) (a : Word) : State :=
  let s := withEntry e a
  { s with mmu := { s.mmu with cntl := { s.mmu.cntl with en := true } } }

/-- `mapped` with a page of the opposite byte order (RBO = 1) at 0x12345000, where physical page 0x80ABCD lies; %g2 is the
datum and %g3 the place of the datum in the bypass space 0x28. -/
def reversedPage : State :=
  writeReg 3 0x0ABCD678 (writeReg 2 0x11223344 (mapped { entry 3 3 with m := true, rbo := true } 0x12345678))

/-- R148, U12, R149: what a store through a page with RBO = 1 left is seen through the same page, and reversed by a load with
RBO = 0. -/
theorem test_reversed_store_is_seen : after (exec (.st 2 1 (.imm 0)) reversedPage) (fun t =>
    after (exec (.ld 4 1 (.imm 0)) t) (fun u => readReg 4 u == 0x11223344) &&
      after (exec (.lda 4 3 false 0x28 0) t) (fun u => readReg 4 u == 0x44332211)) = true := by decide

/-- The word clause of StoreResults: loads from the word just stored through a page with RBO = 1, with either RBO bit. -/
theorem test_witness_StoreResults_load :
    ReachesIn 0x0B .store 0x12345678 reversedPage { pa := 0x80ABCD678, rbo := true } reversedPage ∧
    Memory.wf reversedPage.mem = true ∧ (0x12345678 : Word).toNat % 4 = 0 ∧
    AccessForm (.st 2 1 (.imm 0)) (.sta 2 1 false 0x0B 0) 1 0 (.imm 0) 0x0B 0x12345678 reversedPage (.st 2 1 (.imm 0)) ∧
    ∃ t, exec (.st 2 1 (.imm 0)) reversedPage = .next t ∧
      ReachesIn 0x0B .load 0x12345678 t { pa := 0x80ABCD678, rbo := true } t ∧
      AccessForm (.ld 4 1 (.imm 0)) (.lda 4 1 false 0x0B 0) 1 0 (.imm 0) 0x0B 0x12345678 t (.ld 4 1 (.imm 0)) ∧
      ReachesIn 0x28 .load 0x0ABCD678 t { pa := 0x80ABCD678, rbo := false } t ∧
      AccessForm (.ld 4 3 (.imm 0)) (.lda 4 3 false 0x28 0) 3 0 (.imm 0) 0x28 0x0ABCD678 t (.lda 4 3 false 0x28 0) := by
  refine ⟨⟨by decide, rfl⟩, rfl, by decide, .inl ⟨rfl, rfl, by decide⟩, _, rfl, ⟨by decide, rfl⟩, .inl ⟨rfl, rfl, by decide⟩,
    ⟨by decide, rfl⟩, .inr ⟨rfl, rfl, by decide⟩⟩

theorem test_witness_AtomicResults : let s := sm sample 0 0 false
    (ReachesIn 0x0B .store 0x6000 s { pa := 0x6000, rbo := false } s ∧ Memory.wf s.mem = true ∧
      AccessForm (.swap 2 1 (.imm 0)) (.swapa 2 1 false 0x0B 0) 1 0 (.imm 0) 0x0B 0x6000 s (.swap 2 1 (.imm 0))) ∧
    (ReachesIn 0x20 .store 0x6000 s { pa := 0x6000, rbo := false } s ∧
      AccessForm (.ldstub 2 1 (.imm 0)) (.ldstuba 2 1 false 0x20 0) 1 0 (.imm 0) 0x20 0x6000 s (.ldstuba 2 1 false 0x20 0)) ∧
    (0x6000 : Word).toNat % 4 = 0 :=
  ⟨⟨⟨by decide, rfl⟩, by decide, .inl ⟨rfl, rfl, by decide⟩⟩, ⟨⟨by decide, rfl⟩, .inr ⟨rfl, rfl, by decide⟩⟩, by decide⟩

/-- Supervisor mode, an odd register, and each misalignment. -/
theorem test_witness_MemoryFormTraps : s0.psr.s = true ∧ (3 : Reg).getLsbD 0 = true ∧ (2 : Reg).getLsbD 0 = false ∧
    (let s := s2 0x6000 1
     (readReg 1 s + opnd2 (.imm 1) s).toNat % 2 ≠ 0 ∧ (readReg 1 s + opnd2 (.imm 2) s).toNat % 4 ≠ 0 ∧
     (readReg 1 s + opnd2 (.imm 4) s).toNat % 8 ≠ 0 ∧ (readReg 1 s + readReg 2 s).toNat % 2 ≠ 0 ∧
     (readReg 1 s + readReg 2 s).toNat % 4 ≠ 0 ∧ (readReg 1 s + readReg 2 s).toNat % 8 ≠ 0) := by decide

/-- The same as `mapped` for fetches at `a`, in I-TLB entry 5. -/
def mappedCode (e : TlbEntry) (a : Word) : State :=
  { s0 with pc := a, mmu := { s0.mmu with ctx := 3, itlb := s0.mmu.itlb.set 5 e, cntl := { s0.mmu.cntl with en := true } } }

/-- An address that differs from BKV in every bit is not watched, whichever bits of BKM compare. -/
theorem not_watched (m : Monitor) (a : Word) (h : ∀ k < 32, a.getLsbD k ≠ m.bkv.getLsbD k) (h1 : m.bkm.getLsbD 0 = true)
    (h2 : m.bkm.getLsbD 1 = false) : ¬ Watched m a := by
  intro w
  cases hc : Config.breakMaskCompares
  · exact h 1 (by decide) (w 1 (by decide) (by rw [hc]; exact h2))
  · exact h 0 (by decide) (w 0 (by decide) (by rw [hc]; exact h1))

/-- R181: V = 0, another context, and the lowest tag bit of each level's page do not match; the bit below it does. -/
theorem test_tlb_match :
    (tlbMatches 3 0x12345678 (entry 3 3) && !tlbMatches 3 0x12345678 { entry 3 3 with v := false } &&
      !tlbMatches 2 0x12345678 (entry 3 3) && !tlbMatches 3 0x12344678 (entry 3 3) &&
      !tlbMatches 3 0x12305678 (entry 3 2) && tlbMatches 3 0x12365678 (entry 3 2) &&
      !tlbMatches 3 0x13345678 (entry 3 1) && tlbMatches 3 0x12B45678 (entry 3 1) && tlbMatches 3 0x92345678 (entry 3 0))
      = true := by decide

/-- Only entry 5 matches, for a page of each level and every kind of access; an address the breakpoints watch, with and
without the fault, and one they do not; a fetch that traps. -/
theorem test_witness_DataTargets : (0x2F : Asi).extractLsb' 4 4 = 2 ∧ s0.mmu.cntl.en = false ∧ NoDataBreak s0 ∧
    (∀ l : BitVec 2, let s := mapped { entry 3 l with m := true } 0x12345678
      s.mmu.cntl.en = true ∧
        (∀ j : Fin 64, tlbMatches s.mmu.ctx 0x12345678 s.mmu.dtlb[j] = true ↔ j = 5) ∧
        s.mmu.dtlb[5].m = true ∧ s.mmu.dtlb[5].level = l) ∧
    Permitted 3 True .store ∧ Permitted 4 True .execute ∧
    (∀ l : BitVec 2, let s := mappedCode (entry 4 l) 0x12345678
      s.mmu.cntl.en = true ∧ ∀ j : Fin 16, tlbMatches s.mmu.ctx s.pc s.mmu.itlb[j] = true ↔ j = 5) ∧
    (∀ b ∈ [2, 6], (watching b).mon.bkc.getLsbD 1 = true ∧ Watched (watching b).mon 0x6000 ∧
      dataPage watchedReq (watching b) = .ok (some { pa := 0x6000, rbo := false }) (watching b)) ∧
    (watching 2).mon.bkc.getLsbD 2 = false ∧ (watching 6).mon.bkc.getLsbD 2 = true ∧
    (∀ b ∈ [8, 0x18], (watchedCode b).mon.bkc.getLsbD 3 = true ∧ Watched (watchedCode b).mon (watchedCode b).pc ∧
      fetchPage (watchedCode b).pc (watchedCode b) = .ok 0x6000 (watchedCode b)) ∧
    (watchedCode 8).mon.bkc.getLsbD 4 = false ∧ (watchedCode 0x18).mon.bkc.getLsbD 4 = true ∧
    ¬ Watched { s0.mon with bkv := 0xFFFF9FFF, bkm := 1 } 0x6000 ∧
    ∃ tt u, fetchPage 0x12345678 (mappedCode (entry 1 3) 0x12345678) = .trap tt u := by
  refine ⟨by decide, rfl, ⟨rfl, rfl⟩, by decide, .inl (by decide), .inl (by decide), by decide, ?_, rfl, rfl, ?_, rfl, rfl,
    not_watched _ _ (by decide) rfl rfl, trapped_exists (by decide)⟩
  · intro b hb
    simp only [List.mem_cons, List.not_mem_nil, or_false] at hb
    rcases hb with rfl | rfl <;> exact ⟨rfl, fun _ _ _ => rfl, rfl⟩
  · intro b hb
    simp only [List.mem_cons, List.not_mem_nil, or_false] at hb
    rcases hb with rfl | rfl <;> exact ⟨rfl, fun _ _ _ => rfl, show fetchPage 0x6000 _ = _ from rfl⟩

/-- The access has its fault suppressed. -/
def suppressed {α : Type} (r : Res (Option α)) : Bool :=
  match r with
  | .ok none _ => true
  | _ => false

theorem suppressed_exists {α : Type} {r : Res (Option α)} (h : suppressed r = true) : ∃ u, r = .ok none u := by
  cases r with
  | ok a u => cases a <;> simp [suppressed] at h ⊢
  | _ => simp [suppressed] at h

/-- `mapped` with MCNTL.NF = 1 (R57). -/
def noFault (acc : BitVec 3) : State :=
  let s := mapped (entry acc 3) 0x12345678
  { s with mmu := { s.mmu with cntl := { s.mmu.cntl with nf := true } } }

set_option maxRecDepth 20000 in
/-- Data accesses that find their target, trap, and have their fault suppressed; fetches that find it and trap, no breakpoint
enabled. -/
theorem test_witness_TranslationFrame : ReachesIn 0x0B .load 0x6000 s0 { pa := 0x6000, rbo := false } s0 ∧
    (let s := mapped (entry 3 3) 0x12345678
     ReachesIn 0x0B .load 0x12345678 s { pa := 0x80ABCD678, rbo := false } s) ∧
    (∃ tt u, memoryTarget (spaceOf 0x0B) .load 0x12345678 (mapped (entry 4 3) 0x12345678) = .trap tt u) ∧
    (∃ u, memoryTarget (spaceOf 0x0B) .load 0x12345678 (noFault 4) = .ok none u) ∧
    NoDataBreak (mapped (entry 4 3) 0x12345678) ∧ NoDataBreak (noFault 4) ∧
    (let s := mappedCode (entry 4 3) 0x12345678
     (∃ p, fetchPage s.pc s = .ok p s ∧ fetchTarget s = .ok p s) ∧ s.mon.bkc.getLsbD 3 = false) ∧
    (let s := mappedCode (entry 1 3) 0x12345678
     (∃ tt u, fetchPage s.pc s = .trap tt u) ∧ ∃ tt u, fetchTarget s = .trap tt u) :=
  ⟨⟨by decide, rfl⟩, ⟨by decide, rfl⟩, trapped_exists (by decide), suppressed_exists (by decide), ⟨rfl, rfl⟩, ⟨rfl, rfl⟩,
    ⟨⟨_, rfl, rfl⟩, rfl⟩, trapped_exists (by decide), trapped_exists (by decide)⟩

/-- The tables of va 0x12345678 with another entry at level `l`. -/
def tablesAt (l : Nat) (e : List Byte) : State :=
  { put ([0x40000C, 0x410048, 0x420134, 0x430214].getD l 0) e (tables [0x80, 0xAB, 0xCD, 0x8E]) with pc := 0x12345678 }

/-- The root entry of those tables. -/
def rootWord (s : State) : Word := memWord s.mem (rootAddr s)

theorem startsAtRoot (data : Bool) {s : State} (va : Word) (h0 : s.mmu.ptp0.valid ≠ 1)
    (hd : ∀ p ∈ s.mmu.dptp2.toList, p.valid ≠ 1) (hi : s.mmu.iptp2.valid ≠ 1) :
    WalkStarts data va s 0 (rootWord s) true := by
  refine .inr ⟨rfl, ?_, .inr ⟨rfl, h0, rfl⟩⟩
  cases data
  · intro p hp h; simp only [cachedPtp2, Bool.false_eq_true, if_false, List.mem_singleton] at hp; exact hi (hp ▸ h.1)
  · intro p hp h; exact hd p hp h.1

/-- A PTE at each level, with the pointers above it, of which the walk reads all. -/
theorem walks_from_root (data : Bool) : ∀ l ∈ [0, 1, 2, 3], let s := tablesAt l [0x80, 0xAB, 0xCD, 0x8E]
    WalkStarts data 0x12345678 s 0 (rootWord s) true ∧ WalkEnds s 0x12345678 0 (rootWord s) l ∧
      below s 0x12345678 0 (rootWord s) l = 0x80ABCD8E := by
  intro l hl
  simp only [List.mem_cons, List.not_mem_nil, or_false] at hl
  rcases hl with rfl | rfl | rfl | rfl <;>
    exact ⟨startsAtRoot data _ (by decide) (by decide) (by decide), by unfold WalkEnds Pointer; decide, by decide⟩

/-- The tables with their pointers of level 0, or of level 2, cached; 0x0410 is the root pointer. -/
def cachedAt (l : Nat) : State :=
  let s := tablesAt 3 [0x80, 0xAB, 0xCD, 0x8E]
  let p : Ptp2 := { ptr := 0x4302, valid := 1, tag := 0x12345678#32 |>.extractLsb' 18 14 }
  if l = 0 then { s with mmu := { s.mmu with ptp0 := { ptr := 0x1040, valid := 1 } } }
  else { s with mmu := { s.mmu with iptp2 := p, dptp2 := s.mmu.dptp2.set 2 p } }

theorem walks_from_caches (data : Bool) :
    (WalkStarts data 0x12345678 (cachedAt 0) 0 0x00041001 false ∧ WalkEnds (cachedAt 0) 0x12345678 0 0x00041001 3 ∧
      below (cachedAt 0) 0x12345678 0 0x00041001 3 = 0x80ABCD8E) ∧
    (WalkStarts data 0x12345678 (cachedAt 2) 2 0x00043021 false ∧ WalkEnds (cachedAt 2) 0x12345678 2 0x00043021 1 ∧
      below (cachedAt 2) 0x12345678 2 0x00043021 1 = 0x80ABCD8E) := by
  refine ⟨⟨.inr ⟨rfl, ?_, .inl ⟨rfl, rfl, by decide⟩⟩, by unfold WalkEnds Pointer; decide, by decide⟩,
    ⟨.inl ⟨rfl, rfl, { ptr := 0x4302, valid := 1, tag := 0x48D }, ?_, by decide⟩, by unfold WalkEnds Pointer; decide, by decide⟩⟩
  · unfold Serves; cases data <;> decide
  · cases data <;> decide
/-- No entry of either TLB matches, and each has one that may be replaced; the memory is canonical. -/
def Misses (s : State) : Prop := s.mmu.cntl.en = true ∧ s.psr.et = true ∧ Memory.wf s.mem = true ∧
  ((∀ j : Fin 64, tlbMatches s.mmu.ctx 0x12345678 s.mmu.dtlb[j] = false) ∧ s.mmu.dtlb[0].lock = false) ∧
  ((∀ j : Fin 16, tlbMatches s.mmu.ctx s.pc s.mmu.itlb[j] = false) ∧ s.mmu.itlb[0].lock = false)

set_option maxRecDepth 20000 in
/-- R57: with NF = 1 a load and a store that the page denies are recorded and complete, the store without storing; in ASI 0x09 the
load traps. -/
theorem test_no_fault :
    let kept (t : State) := t.mmu.far == 0x12345678 && t.mmu.fsr.fav && t.mmu.fsr.ftype == 2 && t.pc == 0x1004 && !t.trapped
    (after (exec (.ld 2 1 (.imm 0)) (noFault 4)) (fun t => kept t && t.mmu.fsr.atype == 1) &&
      after (exec (.st 1 1 (.imm 0)) (noFault 4)) (fun t => kept t && t.mmu.fsr.atype == 5 && t.mem == []) &&
      trapsWith 0x09 (exec (.lda 2 1 false 0x09 0) (noFault 4))) = true := by decide

/-- R205, D12: a store leaves the word it has replaced for fetches to see, and one that changes nothing leaves none. -/
theorem test_store_leaves_old_word :
    (after (exec (.stb 2 1 (.imm 6)) (sm sample 0xFF 0 false)) (fun t => t.stale == [{ pa := 0x1801, old := 0xC4D5E6F7, cleared := [] }]) &&
      after (exec (.stb 2 1 (.imm 7)) (sm sample 0xF7 0 false)) (fun t => t.stale == [])) = true := by decide

set_option maxRecDepth 20000 in
/-- Pages a load or a store may not touch, and a supervisor page in user space, each in the D-TLB, in the I-TLB and at the
end of a walk; walks that end in an invalid entry and in a pointer at level 3; with NF = 1 an access in ASI 0x0B and one in ASI
0x09. -/
theorem test_witness_DeniedLoadIsRecorded :
    (∀ c : BitVec 3, let s := noFault c
      s.mmu.cntl.en = true ∧ s.mmu.cntl.nf = true ∧ s.psr.et = true ∧ NoDataBreak s ∧ (0x0B : Asi) ≠ 0x09 ∧
        (∀ j : Fin 64, tlbMatches s.mmu.ctx 0x12345678 s.mmu.dtlb[j] = true ↔ j = 5) ∧
        AccessForm (.ld 2 1 (.reg 0)) (.lda 2 1 false 0x0B 0) 1 0 (.reg 0) 0x0B 0x12345678 s (.ld 2 1 (.reg 0)) ∧
        AccessForm (.swap 2 1 (.reg 0)) (.swapa 2 1 false 0x09 0) 1 0 (.reg 0) 0x09 0x12345678 s (.swapa 2 1 false 0x09 0)) ∧
    (∀ c : BitVec 3, let s := mapped (entry c 3) 0x12345678
      s.mmu.cntl.en = true ∧ s.mmu.cntl.nf = false ∧ s.psr.et = true ∧ (0x12345678 : Word).toNat % 4 = 0 ∧
        (∀ j : Fin 64, tlbMatches s.mmu.ctx 0x12345678 s.mmu.dtlb[j] = true ↔ j = 5) ∧ s.psr.s = true ∧
        0x12345678 = readReg 1 s + readReg 0 s) ∧
    (∀ c : BitVec 3, let s := mappedCode (entry c 3) 0x12345678
      s.mmu.cntl.en = true ∧ s.psr.et = true ∧
        ∀ j : Fin 16, tlbMatches s.mmu.ctx s.pc s.mmu.itlb[j] = true ↔ j = 5) ∧
    (¬ Permitted 4 False .load ∧ ¬ Permitted 0 False .store ∧ ¬ Permitted 5 True .execute ∧ DenialType 4 False 2) ∧
    (¬ Permitted 6 True .load ∧ ¬ Permitted 7 True .store ∧ DenialType 6 True 3) ∧
    (∀ l ∈ [0, 1, 2, 3], ∀ data, let s := tablesAt l [0, 0, 0, 0]
      Misses s ∧ WalkStarts data 0x12345678 s 0 (rootWord s) true ∧ WalkEnds s 0x12345678 0 (rootWord s) l ∧
        WalkFails (0 + l) (below s 0x12345678 0 (rootWord s) l) True .store 1) ∧
    (∀ data, let s := tablesAt 3 [0, 4, 0x30, 0x21]
      Misses s ∧ WalkStarts data 0x12345678 s 0 (rootWord s) true ∧ WalkEnds s 0x12345678 0 (rootWord s) 3 ∧
        WalkFails (0 + 3) (below s 0x12345678 0 (rootWord s) 3) True .load 4) ∧
    WalkFails 3 0x80ABCD9A True .execute 3 := by
  refine ⟨by unfold NoDataBreak AccessForm; decide, by decide, by decide, ⟨by unfold Permitted; decide, by unfold Permitted; decide, by unfold Permitted; decide,
    by unfold DenialType; decide⟩, ⟨by unfold Permitted; decide, by unfold Permitted; decide, by unfold DenialType; decide⟩,
    ?_, fun data => ?_, .inr (.inr ⟨by decide, by unfold Permitted; decide, by unfold DenialType; decide⟩)⟩
  · intro l hl data
    simp only [List.mem_cons, List.not_mem_nil, or_false] at hl
    rcases hl with rfl | rfl | rfl | rfl <;>
      exact ⟨by unfold Misses; decide, startsAtRoot data _ (by decide) (by decide) (by decide),
        by unfold WalkEnds Pointer; decide, .inl (by decide)⟩
  · exact ⟨by unfold Misses; decide, startsAtRoot data _ (by decide) (by decide) (by decide),
      by unfold WalkEnds Pointer; decide, .inr (.inl ⟨rfl, by unfold Pointer; decide, rfl⟩)⟩

/-- A hit with M = 0 over the tables of its page. -/
def unmodified : State :=
  let s := tablesAt 3 [0x80, 0xAB, 0xCD, 0x8E]
  { s with mmu := { s.mmu with dtlb := s.mmu.dtlb.set 5 (entry 3 3) } }

/-- The tables with the first `n` D_PTP2 entries valid for another address. -/
def othersCached (n : Nat) : State :=
  let s := tablesAt 3 [0x80, 0xAB, 0xCD, 0x8E]
  { s with mmu := { s.mmu with
      dptp2 := Vector.ofFn fun i : Fin 4 => if i.val < n then { ptr := 0, valid := 1, tag := 0 } else s.mmu.dptp2[i] } }

set_option maxRecDepth 20000 in
/-- Walks from each start to each level; D_PTP2 entries of which the first invalid one is each of the four, and four valid
ones; a store that hits an entry with M = 0. -/
theorem test_witness_TableWalk :
    (∀ l ∈ [0, 1, 2, 3], ∀ data, let s := tablesAt l [0x80, 0xAB, 0xCD, 0x8E]
      Misses s ∧ WalkStarts data 0x12345678 s 0 (rootWord s) true ∧ WalkEnds s 0x12345678 0 (rootWord s) l ∧
        below s 0x12345678 0 (rootWord s) l = 0x80ABCD8E) ∧
    (∀ l ∈ [0, 2], Misses (cachedAt l)) ∧
    (∀ data, WalkStarts data 0x12345678 (cachedAt 0) 0 0x00041001 false ∧
      WalkEnds (cachedAt 0) 0x12345678 0 0x00041001 3) ∧
    (∀ data, WalkStarts data 0x12345678 (cachedAt 2) 2 0x00043021 false ∧
      WalkEnds (cachedAt 2) 0x12345678 2 0x00043021 1) ∧
    (0x80ABCD8E : Word).getLsbD 1 = true ∧ NoDataBreak (tablesAt 3 [0x80, 0xAB, 0xCD, 0x8E]) ∧
    (∀ k, Permitted ((0x80ABCD8E : Word).extractLsb' 2 3) True k) ∧
    (∀ n ∈ [0, 1, 2, 3, 4], let s := othersCached n
      Misses s ∧ NoDataBreak s ∧ WalkStarts true 0x12345678 s 0 (rootWord s) true ∧
        WalkEnds s 0x12345678 0 (rootWord s) 3) ∧
    (∀ w : Fin 4, FirstInvalid (othersCached w) w) ∧ (∀ i : Fin 4, (othersCached 4).mmu.dptp2[i].valid = 1) ∧
    (let s := unmodified
     s.mmu.cntl.en = true ∧ Memory.wf s.mem = true ∧ NoDataBreak s ∧ WalkStarts true 0x12345678 s 0 (rootWord s) true ∧
      WalkEnds s 0x12345678 0 (rootWord s) 3 ∧
      (∀ i : Fin 64, tlbMatches s.mmu.ctx 0x12345678 s.mmu.dtlb[i] = true ↔ i = 5) ∧ s.mmu.dtlb[5].m = false ∧
      Permitted s.mmu.dtlb[5].acc True .store) := by
  refine ⟨fun l hl data => ⟨?_, walks_from_root data l hl⟩, ?_, fun data => ?_, fun data => ?_, by decide, ⟨rfl, rfl⟩,
    fun k => ?_, fun n hn => ?_, by unfold FirstInvalid; decide, by decide, ⟨rfl, by decide, ⟨rfl, rfl⟩, startsAtRoot true _ (by decide) (by decide) (by decide),
      by unfold WalkEnds Pointer; decide, by decide, by decide, .inl (by decide)⟩⟩
  · simp only [List.mem_cons, List.not_mem_nil, or_false] at hl
    rcases hl with rfl | rfl | rfl | rfl <;> (unfold Misses; decide)
  · unfold Misses; decide
  · exact ⟨(walks_from_caches data).1.1, (walks_from_caches data).1.2.1⟩
  · exact ⟨(walks_from_caches data).2.1, (walks_from_caches data).2.2.1⟩
  · cases k <;> exact .inl (by decide)
  · simp only [List.mem_cons, List.not_mem_nil, or_false] at hn
    rcases hn with rfl | rfl | rfl | rfl | rfl <;>
      exact ⟨by unfold Misses; decide, ⟨rfl, rfl⟩, .inr ⟨rfl, by unfold Serves; decide, .inr ⟨rfl, by decide, rfl⟩⟩,
        by unfold WalkEnds Pointer; decide⟩

/-- Every word is the PTE word of an entry with the rest of a given one (R674). -/
theorem entryWord_exists (w : Word) (e : TlbEntry) : ∃ e' : TlbEntry, EntryWord e' w ∧ e'.vtag = e.vtag ∧ e'.ctx = e.ctx ∧
    e'.rbo = e.rbo ∧ e'.lock = e.lock :=
  ⟨tlbOfWord true w e, ⟨rfl, rfl, rfl, rfl, rfl, (Config.lvlCode.apply_symm_apply _).symm⟩, rfl, rfl, rfl, rfl⟩

/-- Every address can be given in %g1. -/
theorem effective_address (a b : Word) : readReg 1 (s2 a b) + readReg 0 (s2 a b) = a := BitVec.add_zero a

/-- An address of each type; the tables of va 0x12345678 for probes that find an entry at each level, and empty tables for
those that find none; a PTE at the root and a pointer at level 3. -/
theorem test_witness_FlushAndProbe : s0.psr.s = true ∧ (0x12345000 : Word).toNat % 4 = 0 ∧
    ((0x12345000 : Word).extractLsb' 8 3).toNat = 0 ∧ ((0x12340100 : Word).extractLsb' 8 3).toNat = 1 ∧
    ((0x12000200 : Word).extractLsb' 8 3).toNat = 2 ∧ ((0x300 : Word).extractLsb' 8 3).toNat = 3 ∧
    ((0x400 : Word).extractLsb' 8 3).toNat = 4 ∧ ((0x500 : Word).extractLsb' 8 3).toNat = 5 ∧
    (let s := tables [0x80, 0xAB, 0xCD, 0x8E]
     s.psr.s = true ∧ memWord s.mem ((s.mmu.ctp ++ 0#6) + s.mmu.ctx.setWidth 36 * 4) = 0x00041001 ∧
      memWord s.mem 0x410048 = 0x00042011 ∧ memWord s.mem 0x420134 = 0x00043021 ∧
      memWord s.mem 0x430214 = 0x80ABCD8E) ∧
    memWord s0.mem ((s0.mmu.ctp ++ 0#6) + s0.mmu.ctx.setWidth 36 * 4) = 0 ∧
    (0x00041001 : Word).extractLsb' 0 2 = 1 ∧ (0x80ABCD8E : Word).getLsbD 1 = true ∧
    (0x00043021 : Word).getLsbD 1 = false := by decide

set_option maxRecDepth 20000 in
/-- Every address and every stored word. A cache that is not cleared and caches that are; a TLB whose last entry is about
to be locked; the ends of the index ranges. -/
theorem test_witness_MmuRegisters : s0.psr.s = true ∧
    (∀ a : Word, (s2 a 0).psr.s = true ∧ readReg 1 (s2 a 0) + readReg 0 (s2 a 0) = a) ∧
    ((s2 0 0x200).mmu.cntl.ie = false ∧ (s2 0 0x200).icacheCleared = false ∧ (readReg 2 (s2 0 0x200)).getLsbD 9 = true) ∧
    ((cleared 0 0x300).icacheCleared = true ∧ ¬ ∃ k : Fin 512, (cleared 0 0x300).dtags[k].cleared = false) ∧
    ((63 : Fin 64).val = (0x0003F200 : Word).toNat / 4096 % 64 ∧ (15 : Fin 16).val = (0x0003F200 : Word).toNat / 4096 % 16 ∧
      (3 : Fin 4).val = (0x0003F500 : Word).toNat / 4096 % 4 ∧ ((0x0003F200 : Word).extractLsb' 8 3).toNat = 2 ∧
      ((0x0003F700 : Word).extractLsb' 8 3).toNat = 7) ∧
    (let tlb := (oneFree s0).mmu.dtlb
     (∀ j : Fin 64, (tlb.set 5 (entry 3 3))[j].lock = true ∧ (tlb.set 5 (entry 3 3))[j].v = true) ∧
      ¬ ∀ j : Fin 64, (tlb.set 5 { entry 3 3 with lock := false })[j].lock = true) ∧
    (∀ (w : Word) (e : TlbEntry), ∃ e' : TlbEntry, EntryWord e' w ∧ e'.vtag = e.vtag ∧ e'.ctx = e.ctx ∧ e'.rbo = e.rbo ∧
      e'.lock = e.lock) :=
  ⟨rfl, fun a => ⟨rfl, effective_address a 0⟩, by decide, ⟨rfl, by simp [cleared, flashClear, mapVec]⟩, by decide, by decide, entryWord_exists⟩

/-- R732: an enabled counter of instructions reads as its count; the load comes before it is counted (D20). -/
theorem test_counter_read : after (step ((counters 9).withFetchWord 32 0xC4800900)) (fun t =>
    readReg 2 t == 9 && t.mon.counterA == 8) = true := by decide

/-- No counter on, one that counts instructions, one that counts cycles, and one enabled in no mode; a setting, an ACTION and a BKC that are accepted, and one of each that is refused. -/
theorem test_witness_MonitorRegisters : s0.psr.s = true ∧ CountersOff s0 ∧ (readReg 1 s0 + readReg 0 s0).toNat % 8 = 0 ∧
    (let countsCycles (c : Ctrc) := c.aen = true ∧ c.selA = 0 ∧ (c.ua = true ∨ c.ka = true)
     (counters 1).psr.s = true ∧ (counters 1).mon.ctrc.aen = true ∧ ¬ countsCycles (counters 1).mon.ctrc ∧
      countsCycles (ctrcOfWord 0x00600000) ∧ ¬ countsCycles (ctrcOfWord 0x00200000)) ∧
    (2 : Reg).getLsbD 0 = false ∧ (0 : Word).toNat = 2 * s0.mon.zacis.toNat + s0.mon.zbcis.toNat ∧
    (2 ≤ ((0x02000000 : Word).extractLsb' 24 8).toNat ∧ ¬ 2 ≤ ((0x01600000 : Word).extractLsb' 24 8).toNat ∧
      (0x00600000 : Word).getLsbD 21 = true ∧ (0x00600000 : Word).extractLsb' 24 8 = 0 ∧
      (0x00600000 : Word).getLsbD 22 = true ∧ (counters 1).mon.action.getLsbD 2 = true) ∧
    ((0xC04 : Word).getLsbD 2 = true ∧ (0x20 : Word).getLsbD 5 = true ∧ (0x5F : Word).getLsbD 5 = false) ∧
    (0x07 : Asi).toNat ∉ [0x02, 0x03, 0x04, 0x05, 0x06, 0x08, 0x09, 0x0A, 0x0B, 0x0C, 0x0D, 0x0E, 0x0F, 0x30, 0x31, 0x32, 0x36,
        0x37, 0x38, 0x39, 0x40, 0x48, 0x49, 0x4A, 0x4B, 0x4C] ∧ (0x07 : Asi).extractLsb' 4 4 ≠ 2 :=
  ⟨rfl, ⟨rfl, rfl⟩, by decide, by decide, by decide, by decide, by decide, by decide, by decide, by decide⟩

/-! ### Floating point -/

/-- EF off; EF on with an operate pending, and with its exception taken. -/
theorem test_witness_FloatGate : s0.psr.ef = false ∧ s0.psr.s = true ∧
    (∀ m ∈ [FpMode.exceptionPending, .exception],
      let s : State := { sf 0 0 0 with fpMode := m, fq := [(0x3010, 0x91A00864)], psr := psrOfWord 0x400010E0 }
      s.psr.ef = true ∧ s.psr.et = true ∧ s.fq ≠ [] ∧ (readReg 0 s + opnd2 (.imm 8) s).toNat % 8 = 0) ∧
    (readReg 0 s0 + opnd2 (.imm 2) s0).toNat % 4 ≠ 0 ∧ (readReg 0 s0 + opnd2 (.imm 4) s0).toNat % 8 ≠ 0 := by decide

/-- F4 with dz masked, and F5 with dz enabled. -/
theorem test_witness_FloatResults : FpReady (sf 0 0x3F800000 0) ∧
    (floatDiv single 0 false 0x3F800000 0).exc &&& (sf 0 0x3F800000 0).fsr.tem = 0 ∧
    FpReady (sf 0x01000000 0x3F800000 0) ∧
    (floatDiv single 0 false 0x3F800000 0).exc &&& (sf 0x01000000 0x3F800000 0).fsr.tem ≠ 0 :=
  ⟨⟨rfl, rfl⟩, by decide, ⟨rfl, rfl⟩, by decide⟩

/-- 1.0, -1.0 and 0; the greatest single, whose double overflows in every direction; both infinities. -/
theorem test_witness_FloatRounding : Finite single 0x3F800000 ∧ Finite single 0x7F7FFFFF ∧ Finite single 0xBF800000 ∧
    Finite single 0 ∧ valueOf (unpack single 0x3F800000) = 1 ∧ valueOf (unpack single 0xBF800000) = -1 ∧
    valueOf (unpack single 0) = 0 ∧ (1 : Word) ≠ 0 ∧ Infinite single 0x7F800000 ∧ Infinite double 0xFFF0000000000000 ∧
    signOf single 0x7F800000 = false ∧ signOf double 0xFFF0000000000000 = true ∧
    ∀ rm : BitVec 2, ¬ Overflows single rm 2 ∧
      Overflows single rm ((valueOf (unpack single 0x7F7FFFFF) : ℝ) + valueOf (unpack single 0x7F7FFFFF)) := by
  have e1 : unpack single 0x3F800000 = .fin false 8388608 (-23) := by decide
  have e2 : unpack single 0x7F7FFFFF = .fin false 16777215 104 := by decide
  have e3 : unpack single 0xBF800000 = .fin true 8388608 (-23) := by decide
  have e4 : unpack single 0 = .zero false := by decide
  refine ⟨⟨by decide, fun s n => ?_⟩, ⟨by decide, fun s n => ?_⟩, ⟨by decide, fun s n => ?_⟩, ⟨by decide, fun s n => ?_⟩,
    ?_, ?_, ?_, by decide, ⟨by decide, by decide⟩, ⟨by decide, by decide⟩, by decide, by decide, fun rm => ⟨?_, .inl ?_⟩⟩
  · rw [e1]; simp
  · rw [e2]; simp
  · rw [e3]; simp
  · rw [e4]; simp
  · rw [e1]; norm_num [valueOf]
  · rw [e3]; norm_num [valueOf]
  · rw [e4]; rfl
  · norm_num [Overflows, single, Format.bias]
  · rw [e2]; norm_num [valueOf, single, Format.bias, abs_of_pos]

/-- A signalling NaN and a quiet one of each format and sign, in either place (F10 to F12). -/
theorem test_witness_FloatNans : ∀ q ∈ [(single, 0x7F800001), (single, 0xFFC12345), (double, 0xFFF0000000000001),
    (double, 0x7FF8000000000000)], q.2 < 2 ^ (q.1.p + q.1.w) ∧
      q.2 / 2 ^ (q.1.p - 1) % 2 ^ q.1.w = 2 ^ q.1.w - 1 ∧ q.2 % 2 ^ (q.1.p - 1) ≠ 0 := by decide

theorem test_witness_FloatMovesAndFitod : FpReady (sf 0 0 0) := ⟨rfl, rfl⟩

/-- Ordered and unordered operands, and nv enabled. -/
theorem test_witness_FloatCompares : FpReady (sf 0 0 0) ∧
    (∃ sign frac, unpack single 0x7F800001 = .nan sign frac) ∧ isSignalling single (unpack single 0x7F800001) = true ∧
    (∀ sign frac, unpack single 0x3F800000 ≠ .nan sign frac) ∧ (0x10 : BitVec 5) &&& (sf 0x08000000 0 0).fsr.tem ≠ 0 := by
  refine ⟨⟨rfl, rfl⟩, ⟨_, _, rfl⟩, by decide, fun s n => ?_, by decide⟩
  have e : unpack single 0x3F800000 = .fin false 8388608 (-23) := by decide
  rw [e]; simp

theorem test_witness_UnimplementedFpops : FpReady (sf 0 0 0) ∧ Instr.faddq 8 0 4 ∈ unimplementedFpops 8 0 4 0x1FF :=
  ⟨⟨rfl, rfl⟩, by decide⟩

theorem test_witness_FloatLoads : let s := smf sample 0 0 true
    FpReady s ∧ ReachesIn (dataAsi s) .load (readReg 1 s + opnd2 (.imm 0) s) s { pa := 0x6000, rbo := false } s ∧
      (readReg 1 s + opnd2 (.imm 0) s).toNat % 8 = 0 := ⟨⟨rfl, rfl⟩, ⟨by decide, rfl⟩, by decide⟩

/-- With an empty queue, and with an operate that has trapped. -/
theorem test_witness_FloatStores : ∀ m ∈ [FpMode.execute, .exception],
    let s : State := { smf sample 0 0 true with fpMode := m }
    s.psr.ef = true ∧ s.fpMode ≠ .exceptionPending ∧ Memory.wf s.mem = true ∧
      (readReg 1 s + opnd2 (.imm 0) s).toNat % 8 = 0 ∧
      ∃ w : Word, w.extractLsb' 30 2 = s.fsr.rd ∧ w.extractLsb' 28 2 = 0 ∧ w.extractLsb' 23 5 = s.fsr.tem ∧
        w.getLsbD 22 = s.fsr.ns ∧ w.extractLsb' 17 5 = 0 ∧ w.extractLsb' 14 3 = s.fsr.ftt ∧
        (w.getLsbD 13 = true ↔ s.fq ≠ []) ∧ w.getLsbD 12 = false ∧ w.extractLsb' 10 2 = s.fsr.fcc ∧
        w.extractLsb' 5 5 = s.fsr.aexc ∧ w.extractLsb' 0 5 = s.fsr.cexc := by
  intro m hm
  simp only [List.mem_cons, List.not_mem_nil, or_false] at hm
  rcases hm with rfl | rfl <;> exact ⟨rfl, by decide, by decide, by decide, 0, by decide⟩

/-- A queue of one entry, and an empty one. -/
theorem test_witness_StdfqDequeues :
    (let s : State := { smf zeros 0 0 true with fq := [(0x3010, 0x91A00864)], fpMode := .exception }
     s.psr.s = true ∧ s.psr.ef = true ∧ s.fpMode ≠ .exceptionPending ∧ s.fq = (0x3010, 0x91A00864) :: [] ∧
       Memory.wf s.mem = true ∧ (readReg 1 s + opnd2 (.imm 0) s).toNat % 8 = 0) ∧
    (let s : State := smf zeros 0 0 true
     s.psr.s = true ∧ s.psr.ef = true ∧ s.fpMode ≠ .exceptionPending ∧ s.fq = [] ∧ s.psr.et = true) := by
  refine ⟨⟨rfl, rfl, by decide, rfl, by decide, by decide⟩, rfl, rfl, by decide, rfl, rfl⟩

end Sys2Proof.Tests
end

section
/-! The parts of `Spec.Inv`, and the relation `Keeps` between a state and what an operation makes of it. Each operation of the
model gets one rule: it keeps the invariant and PSR.DE. -/

namespace Sys2Proof.Machine

open Sys2Proof.Spec

/-! ## The parts of the invariant -/

/-- The program counters are word addresses (R36). -/
structure PcInv (pc npc : Word) : Prop where
  pc : AlignedWord pc
  npc : AlignedWord npc

/-- The queue and the mode of the FPU agree, and ftt is one the chip produces (R51, R54, R770, D39). -/
structure FpuInv (ftt : BitVec 3) (fq : List (Word × Word)) (mode : FpMode) : Prop where
  queue : fq.length ≤ 1
  mode : mode = .execute ↔ fq = []
  trapType : ftt ∈ ([0, 1, 3, 4] : List (BitVec 3))

/-- The I-TLB holds neither M nor RBO (R65, R66), and neither TLB is locked and valid throughout (R876). -/
structure TlbInv (m : Mmu) : Prop where
  itlb : ∀ i : Fin 16, m.itlb[i].m = false ∧ m.itlb[i].rbo = false
  dataUnlocked : allLocked m.dtlb = false
  instrUnlocked : allLocked m.itlb = false

/-- The TLBs, the context register (R664), and caches that are on only after software has cleared them (R72, R73). -/
structure MmuInv (m : Mmu) (tags : Vector DTag 512) (icacheCleared : Bool) : Prop where
  tlbs : TlbInv m
  context : contextNumber m.ctx = m.ctx
  instrCache : m.cntl.ie = true → icacheCleared = true
  dataCache : m.cntl.de = true → tags.toList.all DTag.cleared = true

/-- The monitor is in a state the spec describes (R723, R734, R820), and what is pending is enabled (D19). -/
structure MonInv (m : Monitor) : Prop where
  physicalMatch : m.bkc.getLsbD 5 = false
  selectA : m.ctrc.selA.toNat < 2
  selectB : m.ctrc.selB.toNat < 2
  cycles : cycleInterrupt m.ctrc m.action = false
  pendA : m.pendA = true → intA m.action = true
  pendB : m.pendB = true → intB m.action = true
  pendC : m.pendC = true → intC m.action = true
  pendD : m.pendD = true → intD m.action = true

/-- The invariant, by the parts of the state it speaks of. -/
structure InvParts (s : State) : Prop where
  pcs : PcInv s.pc s.npc
  mem : Memory.wf s.mem = true
  fpu : FpuInv s.fsr.ftt s.fq s.fpMode
  mmu : MmuInv s.mmu s.dtags s.icacheCleared
  mon : MonInv s.mon

theorem inv_iff_parts (s : State) : Inv s ↔ InvParts s where
  mp h :=
    { pcs := ⟨h.pc, h.npc⟩
      mem := h.mem
      fpu := ⟨h.queue, h.mode, h.trapType⟩
      mmu := ⟨⟨h.itlb, h.dataUnlocked, h.instrUnlocked⟩, h.context, h.instrCache, h.dataCache⟩
      mon := ⟨h.physicalMatch, h.selectA, h.selectB, h.cycles, h.pendA, h.pendB, h.pendC, h.pendD⟩ }
  mpr := fun ⟨pcs, mem, fpu, mmu, mon⟩ =>
    { pc := pcs.pc
      npc := pcs.npc
      mem := mem
      queue := fpu.queue
      mode := fpu.mode
      trapType := fpu.trapType
      itlb := mmu.tlbs.itlb
      context := mmu.context
      dataUnlocked := mmu.tlbs.dataUnlocked
      instrUnlocked := mmu.tlbs.instrUnlocked
      instrCache := mmu.instrCache
      dataCache := mmu.dataCache
      physicalMatch := mon.physicalMatch
      selectA := mon.selectA
      selectB := mon.selectB
      cycles := mon.cycles
      pendA := mon.pendA
      pendB := mon.pendB
      pendC := mon.pendC
      pendD := mon.pendD }

/-! ## What an operation keeps -/

/-- What every operation but WRPSR does to a state: PSR.DE stays (R41), and the invariant is kept. -/
structure Keeps (s t : State) : Prop where
  de : t.psr.de = s.psr.de
  inv : InvParts s → InvParts t

theorem Keeps.refl (s : State) : Keeps s s := ⟨rfl, id⟩

theorem Keeps.trans {s t u : State} (h : Keeps s t) (g : Keeps t u) : Keeps s u := ⟨g.de.trans h.de, g.inv ∘ h.inv⟩

/-- `P` holds of the state an instruction answers, if it answers one. -/
def Answers (P : State → Prop) : Result → Prop
  | .next t => P t
  | .fault _ => True
  | .refused _ => True

theorem Answers.of_eq {P : State → Prop} {r : Result} {t : State} (h : Answers P r) (e : r = .next t) : P t := by
  subst e; exact h

theorem Answers.imp {P Q : State → Prop} (hpq : ∀ t, P t → Q t) {r : Result} (h : Answers P r) : Answers Q r := by
  cases r with
  | next t => exact hpq t h
  | fault e => trivial
  | refused e => trivial

theorem Res.After.imp {α : Type} {P Q : State → Prop} (hpq : ∀ t, P t → Q t) {x : Res α} (h : x.After P) : x.After Q := by
  cases x with
  | ok a t => exact hpq t h
  | trap tt t => exact hpq t h
  | fault e => trivial
  | refused e => trivial

/-- Two parts of an instruction, one after the other. -/
theorem keeps_andThen {α β : Type} {x : Res α} {f : α → State → Res β} {s : State} (hx : x.After (Keeps s))
    (hf : ∀ a u, x = .ok a u → (f a u).After (Keeps u)) : (andThen x f).After (Keeps s) := by
  cases x with
  | ok a u => exact (hf a u rfl).imp fun _ => Keeps.trans hx
  | trap tt u => exact hx
  | fault e => trivial
  | refused e => trivial

/-! ## Registers -/

theorem keeps_drawn (s : State) : Keeps s (drawn s) := ⟨rfl, fun h => { h with }⟩

theorem keeps_writeRegIn (w : BitVec 3) (r : Reg) (v : Word) (s : State) : Keeps s (writeRegIn w r v s) := by
  unfold writeRegIn
  split_ifs
  · exact .refl s
  · exact ⟨rfl, fun h => { h with }⟩
  · exact ⟨rfl, fun h => { h with }⟩

theorem keeps_writeReg (r : Reg) (v : Word) (s : State) : Keeps s (writeReg r v s) := keeps_writeRegIn _ r v s

theorem keeps_setY (v : Word) (s : State) : Keeps s { s with y := v } := ⟨rfl, fun h => { h with }⟩

theorem keeps_setWim (v : BitVec 8) (s : State) : Keeps s { s with wim := v } := ⟨rfl, fun h => { h with }⟩

theorem keeps_setTbr (t : Tbr) (s : State) : Keeps s { s with tbr := t } := ⟨rfl, fun h => { h with }⟩

theorem keeps_setStale (l : List Stale) (s : State) : Keeps s { s with stale := l } := ⟨rfl, fun h => { h with }⟩

theorem keeps_setIcc (i : Icc) (s : State) : Keeps s (setIcc i s) := ⟨rfl, fun h => { h with }⟩

theorem keeps_setCwp (w : BitVec 3) (s : State) : Keeps s { s with psr := { s.psr with cwp := w } } :=
  ⟨rfl, fun h => { h with }⟩

theorem keeps_writeF (r : Reg) (v : Word) (s : State) : Keeps s (writeF r v s) := ⟨rfl, fun h => { h with }⟩

theorem keeps_writeD (r : Reg) (v : BitVec 64) (s : State) : Keeps s (writeD r v s) :=
  (keeps_writeF ..).trans (keeps_writeF ..)

/-! ## Program counters -/

theorem alignedWord_iff (w : Word) : AlignedWord w ↔ w.toNat % 4 = 0 := by
  rw [AlignedWord, ← BitVec.toNat_inj, BitVec.extractLsb'_toNat]
  rfl

theorem alignedWord_add {a b : Word} (ha : AlignedWord a) (hb : AlignedWord b) : AlignedWord (a + b) := by
  rw [alignedWord_iff] at *
  rw [BitVec.toNat_add]
  omega

theorem alignedWord_shiftLeft (a : Word) : AlignedWord (a <<< 2) := by
  rw [alignedWord_iff, BitVec.toNat_shiftLeft, Nat.shiftLeft_eq]
  omega

/-- The word after an aligned one is aligned. -/
theorem alignedWord_add_four {a : Word} (h : AlignedWord a) : AlignedWord (a + 4) :=
  alignedWord_add h (by decide)

theorem trapVector_aligned (t : Tbr) : AlignedWord (trapVector t) :=
  (alignedWord_iff _).mpr ((append_mod (k := 2) (by decide) (t.tba ++ t.tt) 0#4).trans rfl)

theorem branchTarget_aligned (disp22 : BitVec 22) {s : State} (h : InvParts s) : AlignedWord (branchTarget disp22 s) :=
  alignedWord_add h.pcs.pc (alignedWord_shiftLeft _)

theorem callTarget_aligned (disp30 : BitVec 30) {s : State} (h : InvParts s) : AlignedWord (callTarget disp30 s) :=
  alignedWord_add h.pcs.pc (extract_low_append disp30)

theorem keeps_advance (s : State) : Keeps s (advance s) :=
  ⟨rfl, fun h => { h with pcs := ⟨h.pcs.npc, alignedWord_add_four h.pcs.npc⟩ }⟩

/-- A taken transfer goes to word addresses, also where they are free (log 3). -/
theorem keeps_transfer (conditional : Bool) {pc npc : Word} {s : State} (hp : InvParts s → PcInv pc npc) :
    Keeps s (transfer conditional pc npc s) := by
  unfold transfer
  split_ifs
  · exact ⟨rfl, fun h => { h with pcs := ⟨freePc_aligned s, freePc_aligned (drawn s)⟩ }⟩
  · exact ⟨rfl, fun h => { h with pcs := hp h }⟩

theorem keeps_jump (conditional : Bool) {t : Word} {s : State} (ht : InvParts s → AlignedWord t) :
    Keeps s (jump conditional t s) :=
  keeps_transfer conditional fun h => ⟨h.pcs.npc, ht h⟩

theorem keeps_branchIf (taken a : Bool) (disp22 : BitVec 22) (s : State) : Keeps s (branchIf taken a disp22 s) := by
  unfold branchIf
  split_ifs
  · exact keeps_jump true (branchTarget_aligned disp22)
  · exact ⟨rfl, fun h => { h with pcs := ⟨alignedWord_add_four h.pcs.npc, alignedWord_add h.pcs.npc (by decide)⟩ }⟩
  · exact keeps_advance s

theorem keeps_branchAlways (a : Bool) (disp22 : BitVec 22) (s : State) : Keeps s (branchAlways a disp22 s) := by
  unfold branchAlways
  split_ifs
  · exact keeps_transfer false fun h => 
      ⟨branchTarget_aligned disp22 h, alignedWord_add_four (branchTarget_aligned disp22 h)⟩
  · exact keeps_jump false (branchTarget_aligned disp22)

/-! ## Traps -/

/-- The entry into a trap handler or into error mode. -/
theorem keeps_takeTrap (tt : TrapType) (s : State) : Keeps s (takeTrap tt s) := by
  cases he : s.psr.et
  · rw [takeTrap_of_not_et he]
    exact ⟨rfl, fun h => { h with }⟩
  · rw [takeTrap_of_et he]
    let w := s.psr.cwp - 1
    have hr : Keeps s (writeRegIn w 18 s.npc (writeRegIn w 17 s.pc s)) := (keeps_writeRegIn ..).trans (keeps_writeRegIn ..)
    refine ⟨rfl, fun h => ?_⟩
    exact { hr.inv h with pcs := ⟨trapVector_aligned _, alignedWord_add_four (trapVector_aligned _)⟩ }

theorem keeps_takeTrapWith (tt : TrapType) {s t : State} (h : Keeps s t) : Keeps s (takeTrapWith tt s t) := by
  unfold takeTrapWith
  split_ifs
  · exact h.trans (keeps_takeTrap tt t)
  · exact keeps_takeTrap tt s

theorem keeps_returnFromTrap {t : Word} (ht : AlignedWord t) (s : State) : Keeps s (returnFromTrap t s) :=
  Keeps.trans (t := { s with psr := { s.psr with et := true, cwp := s.psr.cwp + 1, s := s.psr.ps } })
    ⟨rfl, fun h => { h with }⟩ (keeps_jump false fun _ => ht)

theorem keeps_finish {s : State} {x : Res Unit} (h : x.After (Keeps s)) : Answers (Keeps s) (finish s x) := by
  cases x with
  | ok a t => exact h
  | trap tt t => exact keeps_takeTrapWith tt h
  | fault e => trivial
  | refused e => trivial

/-! ## The FPU -/

theorem keeps_setFsr {r : Fsr} {s : State} (hr : InvParts s → r.ftt ∈ ([0, 1, 3, 4] : List (BitVec 3))) :
    Keeps s { s with fsr := r } :=
  ⟨rfl, fun h => { h with fpu := ⟨h.fpu.queue, h.fpu.mode, hr h⟩ }⟩

/-- The queue of an operate that waits for its trap holds that operate alone (D39). -/
theorem keeps_enqueue (i : Instr) (s : State) : Keeps s (enqueue i s) :=
  ⟨rfl, fun h => { h with fpu := ⟨by simp, by simp, h.fpu.trapType⟩ }⟩

/-- STDFQ takes the only entry, so the FPU executes again. -/
theorem keeps_dequeue (s : State) : Keeps s (dequeue s) := by
  refine ⟨rfl, fun h => { h with fpu := ?_ }⟩
  have ht : s.fq.tail = [] := List.eq_nil_of_length_eq_zero (by have := h.fpu.queue; simp; omega)
  exact ⟨by simp [ht], by simp [dequeue, ht], h.fpu.trapType⟩

/-- A pending exception is delivered: with an entry in the queue the FPU does not execute. -/
theorem keeps_enterException (s : State) :
    Keeps s { s with fpMode := if s.fq.isEmpty then .execute else .exception } :=
  ⟨rfl, fun h => { h with fpu := ⟨h.fpu.queue, by cases s.fq <;> simp, h.fpu.trapType⟩ }⟩

theorem keeps_enterSequenceError (s : State) :
    Keeps s { s with fsr := { s.fsr with ftt := 4 }, fpMode := if s.fq.isEmpty then .execute else s.fpMode } := by
  refine ⟨rfl, fun h => { h with fpu := ⟨h.fpu.queue, ?_, by simp⟩ }⟩
  have hm := h.fpu.mode
  cases hq : s.fq <;> simp_all

/-- The result of an operate, or its place in the queue (R553). -/
theorem keeps_deliver (i : Instr) (exc : BitVec 5) {write : State → State} (hw : ∀ s, Keeps s (write s)) (s : State) :
    Keeps s (deliver i exc write s) := by
  by_cases he : exc &&& s.fsr.tem = 0
  · rw [deliver_of_masked he]
    exact (hw s).trans (keeps_setFsr fun _ => by simp)
  · rw [deliver_of_enabled he]
    exact (keeps_setFsr fun _ => by simp).trans (keeps_enqueue i _)

end Sys2Proof.Machine
end

section
/-! What translations, the address spaces that are not memory, and the access primitives keep. -/

namespace Sys2Proof.Machine

open Sys2Proof.Spec

/-! ## A TLB that is not locked throughout (R876) -/

/-- Some entry of the TLB may be replaced or is invalid. -/
theorem allLocked_eq_false_iff {n : Nat} {tlb : Vector TlbEntry n} :
    allLocked tlb = false ↔ ∃ i : Fin n, (tlb[i].lock && tlb[i].v) = false := by
  rw [allLocked, List.all_eq_false]
  constructor
  · rintro ⟨e, hm, he⟩
    obtain ⟨i, hi, rfl⟩ := Vector.mem_iff_getElem.mp (Vector.mem_toList_iff.mp hm)
    exact ⟨⟨i, hi⟩, by simpa using he⟩
  · rintro ⟨i, h⟩
    exact ⟨tlb[i], Vector.mem_toList_iff.mpr (Vector.getElem_mem _), by rw [h]; decide⟩

/-- A fill leaves an entry that is not locked. -/
theorem allLocked_set_of_unlocked {n : Nat} (tlb : Vector TlbEntry n) (i : Fin n) {e : TlbEntry} (he : e.lock = false) :
    allLocked (tlb.set i e) = false :=
  allLocked_eq_false_iff.mpr ⟨i, by simp [he]⟩

/-- A change of entries that makes none locked and valid. -/
theorem allLocked_of_entries {n : Nat} {tlb tlb' : Vector TlbEntry n} (h : allLocked tlb = false)
    (he : ∀ i : Fin n, (tlb[i].lock && tlb[i].v) = false → (tlb'[i].lock && tlb'[i].v) = false) :
    allLocked tlb' = false := by
  obtain ⟨i, hi⟩ := allLocked_eq_false_iff.mp h
  exact allLocked_eq_false_iff.mpr ⟨i, he i hi⟩

theorem getElem_set_eq_ite {α : Type} {n : Nat} (v : Vector α n) (i j : Fin n) (x : α) :
    (v.set i x)[j] = if i = j then x else v[j] := by
  simp [Vector.getElem_set, Fin.ext_iff]

/-- The I-TLB holds neither M nor RBO after an entry without them has been set. -/
theorem itlbClean_set {tlb : Vector TlbEntry 16} (h : ∀ j : Fin 16, tlb[j].m = false ∧ tlb[j].rbo = false) (i : Fin 16)
    {e : TlbEntry} (he : e.m = false ∧ e.rbo = false) :
    ∀ j : Fin 16, (tlb.set i e)[j].m = false ∧ (tlb.set i e)[j].rbo = false := by
  intro j
  rw [getElem_set_eq_ite]
  split_ifs
  · exact he
  · exact h j

/-! ## Changes of the MMU -/

/-- A change of the MMU that leaves its control register. -/
theorem keeps_setMmu {s : State} {m : Mmu} (hc : m.cntl = s.mmu.cntl) (hx : InvParts s → contextNumber m.ctx = m.ctx)
    (ht : InvParts s → TlbInv m) : Keeps s { s with mmu := m } :=
  ⟨rfl, fun h =>
    { h with mmu := ⟨ht h, hx h, fun e => h.mmu.instrCache (hc ▸ e), fun e => h.mmu.dataCache (hc ▸ e)⟩ }⟩

/-- Accesses of the MMU keep what the TLBs must hold, and the rest of the invariant with it. -/
theorem Translated.keeps {s u : State} (h : Translated s u) (ht : TlbInv s.mmu → TlbInv u.mmu) : Keeps s u where
  de := by rw [h.only]
  inv p :=
    { pcs := by rw [h.only]; exact p.pcs
      mem := h.wf p.mem
      fpu := by rw [h.only]; exact p.fpu
      mmu :=
        { tlbs := ht p.mmu.tlbs
          context := by rw [h.ctx]; exact p.mmu.context
          instrCache := by rw [h.cntl, h.only]; exact p.mmu.instrCache
          dataCache := by rw [h.cntl, h.only]; exact p.mmu.dataCache }
      mon := by rw [h.mon]; exact p.mon }

/-- Accesses of the MMU that leave both TLBs. -/
theorem Translated.keeps_of_tlbs {s u : State} (h : Translated s u) (hi : u.mmu.itlb = s.mmu.itlb)
    (hd : u.mmu.dtlb = s.mmu.dtlb) : Keeps s u :=
  h.keeps fun t => ⟨by rw [hi]; exact t.itlb, by rw [hd]; exact t.dataUnlocked, by rw [hi]; exact t.instrUnlocked⟩

theorem keeps_cachePointers (data : Bool) (va : Word) (w : Walk) (s : State) : Keeps s (cachePointers data va w s) :=
  have h := (oneSide_cachePointers data va w s).2
  (translated_cachePointers data va w s).keeps_of_tlbs h.itlb h.dtlb

theorem keeps_recordFault (data : Bool) (q : Request) (ft : BitVec 3) (l : BitVec 2) (s : State) :
    Keeps s (recordFault data q ft l s) := (translated_recordFault data q ft l s).keeps_of_tlbs rfl rfl

theorem keeps_writePte {addr : PAddr} (h : addr.toNat % 4 = 0) (old new : Word) (s : State) :
    Keeps s (writePte addr old new s) := by
  have hm : (writePte addr old new s).mmu = s.mmu := by unfold writePte; split_ifs <;> rfl
  exact (translated_writePte h old new s).keeps_of_tlbs (by rw [hm]) (by rw [hm])

/-- The entry a fill makes is not locked, and one of the I-TLB has neither M nor RBO. -/
theorem keeps_fillTlb {data : Bool} {va : Word} {level : BitVec 2} {pte : Word} {s u : State}
    (h : fillTlb data va level pte s = some u) : Keeps s u := by
  refine (translated_fillTlb h).keeps fun t => ?_
  unfold fillTlb at h
  cases data
  · obtain ⟨i, -, rfl⟩ := Option.map_eq_some_iff.mp h
    exact ⟨itlbClean_set t.itlb i ⟨rfl, rfl⟩, t.dataUnlocked, allLocked_set_of_unlocked _ i rfl⟩
  · obtain ⟨i, -, rfl⟩ := Option.map_eq_some_iff.mp h
    exact ⟨t.itlb, allLocked_set_of_unlocked _ i rfl, t.instrUnlocked⟩

/-- M is set in an entry of the D-TLB, whose Lock and V stay. -/
theorem keeps_setM (i : Fin 64) {e : TlbEntry} {s : State} (he : e = s.mmu.dtlb[i]) :
    Keeps s { s with mmu := { s.mmu with dtlb := s.mmu.dtlb.set i { e with m := true } } } := by
  refine keeps_setMmu rfl (fun h => h.mmu.context) fun h => { h.mmu.tlbs with dataUnlocked := ?_ }
  refine allLocked_of_entries h.mmu.tlbs.dataUnlocked fun j hj => ?_
  rw [getElem_set_eq_ite]
  split_ifs with hij
  · subst hij he; exact hj
  · exact hj

/-! ## Breakpoints -/

theorem keeps_setMon {s : State} {m : Monitor} (hm : InvParts s → MonInv m) : Keeps s { s with mon := m } :=
  ⟨rfl, fun h => { h with mon := hm h }⟩

/-- A breakpoint makes an interrupt pending only where ACTION enables it (R784, D19). -/
theorem keeps_requestCode (s : State) : Keeps s (requestCode s) :=
  keeps_setMon fun h => { h.mon with pendC := fun e => ((reached_requestCode s).pendC e).elim h.mon.pendC id }

theorem keeps_requestData (s : State) : Keeps s (requestData s) :=
  keeps_setMon fun h => { h.mon with pendD := fun e => ((reached_requestData s).pendD e).elim h.mon.pendD id }

/-! ## Translation -/

theorem keeps_miss (data : Bool) (q : Request) (s : State) : (translateMiss data q s).After (Keeps s) := by
  have hp : Keeps s (cachePointers data q.va (walk data q.va s) (drawn s)) :=
    (keeps_drawn s).trans (keeps_cachePointers ..)
  unfold translateMiss
  by_cases hn : noVictim data s = true
  · rw [if_pos hn]; trivial
  rw [if_neg hn]
  dsimp only
  split
  · exact hp
  · split_ifs
    · split
      · trivial
      · rename_i hf
        exact (hp.trans (keeps_writePte (walk_aligned data q.va s) _ _ _)).trans (keeps_fillTlb hf)
    · exact hp

theorem keeps_setModified (i : Fin 64) (q : Request) (s : State) : (setModified i q s).After (Keeps s) := by
  have hp : Keeps s (cachePointers true q.va (walk true q.va s) (drawn s)) :=
    (keeps_drawn s).trans (keeps_cachePointers ..)
  have hd := (oneSide_cachePointers true q.va (walk true q.va s) (drawn s)).2.dtlb
  unfold setModified
  dsimp only
  split
  · exact hp
  · refine (hp.trans (keeps_writePte (walk_aligned true q.va s) _ _ _)).trans (keeps_setM i ?_)
    unfold writePte
    split_ifs <;> simp [hd]

theorem keeps_translateData (q : Request) (s : State) : (translateData q s).After (Keeps s) := by
  unfold translateData
  split
  · exact keeps_miss true q s
  · dsimp only
    split_ifs
    · exact keeps_setModified _ q s
    · exact .refl s
    · exact .refl s
  · exact keeps_drawn s

theorem keeps_translateFetch (q : Request) (s : State) : (translateFetch q s).After (Keeps s) := by
  unfold translateFetch
  split
  · exact keeps_miss false q s
  · dsimp only
    split_ifs
    · exact .refl s
    · exact .refl s
  · exact keeps_drawn s

theorem keeps_dataPage (q : Request) (s : State) : (dataPage q s).After (Keeps s) := by
  have ht := keeps_translateData q s
  unfold dataPage
  by_cases he : s.mmu.cntl.en = true
  · rw [if_pos he]
    split <;> rename_i hx <;> rw [hx] at ht
    · exact ht
    · trivial
    · dsimp only
      split_ifs <;> exact Keeps.trans ht (keeps_recordFault ..)
  · rw [if_neg he]; exact Keeps.refl s

theorem keeps_fetchPage (va : Word) (s : State) : (fetchPage va s).After (Keeps s) := by
  have ht := keeps_translateFetch (fetchRequest va s) s
  unfold fetchPage
  by_cases he : s.mmu.cntl.en = true
  · rw [if_pos he]
    split <;> rename_i hx <;> rw [hx] at ht
    · exact ht
    · trivial
    · exact Keeps.trans ht (keeps_recordFault ..)
  · rw [if_neg he]; exact Keeps.refl s

theorem keeps_dataTarget (q : Request) (s : State) : (dataTarget q s).After (Keeps s) := by
  refine keeps_andThen (keeps_dataPage q s) fun t u _ => ?_
  split_ifs
  · exact keeps_recordFault ..
  · exact keeps_requestData u
  · exact Keeps.refl u

theorem keeps_fetchTarget (s : State) : (fetchTarget s).After (Keeps s) := by
  refine keeps_andThen (keeps_fetchPage s.pc s) fun pa u _ => ?_
  split_ifs
  · exact keeps_recordFault ..
  · exact keeps_requestCode u
  · exact Keeps.refl u

theorem keeps_memoryTarget (sp : Space) (kind : Access) (a : Word) (s : State) :
    (memoryTarget sp kind a s).After (Keeps s) := by
  cases sp with
  | translated instr user => exact keeps_dataTarget _ s
  | bypass high => exact Keeps.refl s
  | special => exact Keeps.refl s

/-! ## ASI 0x03, flush and probe -/

theorem keeps_probeFill (va : Word) (s : State) : Keeps s (probeFill va s) := by
  unfold probeFill
  dsimp only
  split_ifs
  · cases hf : fillTlb true va (probeWalk 3 va s).last.level (probeWalk 3 va s).last.entry
        (cachePointers true va (walk true va s) (drawn s)) with
    | none => exact .refl s
    | some u => exact ((keeps_drawn s).trans (keeps_cachePointers ..)).trans (keeps_fillTlb hf)
  · exact .refl s

theorem keeps_probeMmu (a : Word) (s : State) : (probeMmu a s).After (Keeps s) := by
  unfold probeMmu
  dsimp only
  split_ifs
  · exact Keeps.refl s
  · exact keeps_probeFill a s
  · exact Keeps.refl s

/-- A flush can only make an entry invalid (R647, D41). -/
theorem flushEntry_fields (t : BitVec 3) (a ctx : Word) (e : TlbEntry) :
    (flushEntry t a ctx e).m = e.m ∧ (flushEntry t a ctx e).rbo = e.rbo ∧ (flushEntry t a ctx e).lock = e.lock ∧
      ((flushEntry t a ctx e).v = true → e.v = true) := by
  unfold flushEntry
  split_ifs
  · exact ⟨rfl, rfl, rfl, by simp⟩
  · exact ⟨rfl, rfl, rfl, id⟩

theorem allLocked_flush {n : Nat} {tlb : Vector TlbEntry n} (t : BitVec 3) (a ctx : Word) (h : allLocked tlb = false) :
    allLocked (mapVec (flushEntry t a ctx) tlb) = false := by
  refine allLocked_of_entries h fun i hi => ?_
  obtain ⟨-, -, hl, hv⟩ := flushEntry_fields t a ctx tlb[i]
  rw [mapVec_getElem, hl]
  cases hlock : tlb[i].lock
  · rfl
  · cases hval : (flushEntry t a ctx tlb[i]).v
    · rfl
    · rw [hlock, hv hval] at hi
      exact hi

theorem tlbInv_flush {m : Mmu} (h : TlbInv m) (t : BitVec 3) (a ctx : Word) :
    TlbInv { m with itlb := mapVec (flushEntry t a ctx) m.itlb, dtlb := mapVec (flushEntry t a ctx) m.dtlb } where
  itlb i := by
    obtain ⟨hm, hr, -, -⟩ := flushEntry_fields t a ctx m.itlb[i]
    rw [mapVec_getElem, hm, hr]
    exact h.itlb i
  dataUnlocked := allLocked_flush t a ctx h.dataUnlocked
  instrUnlocked := allLocked_flush t a ctx h.instrUnlocked

theorem tlbInv_dropPtp0 {m : Mmu} (h : TlbInv m) : TlbInv (dropPtp0 m) := { h with }

theorem tlbInv_dropPtp2 {m : Mmu} (h : TlbInv m) : TlbInv (dropPtp2 m) := { h with }

theorem keeps_flushMmu (a : Word) (s : State) : Keeps s (flushMmu a s) := by
  have hf (h : InvParts s) := tlbInv_flush h.mmu.tlbs (a.extractLsb' 8 3) a s.mmu.ctx
  unfold flushMmu
  dsimp only
  generalize mapVec (flushEntry _ a _) s.mmu.itlb = itlb at hf ⊢
  generalize mapVec (flushEntry _ a _) s.mmu.dtlb = dtlb at hf ⊢
  split_ifs
  · exact keeps_setMmu rfl (fun h => h.mmu.context) fun h => tlbInv_dropPtp2 (hf h)
  · exact keeps_setMmu rfl (fun h => h.mmu.context) fun h => tlbInv_dropPtp0 (tlbInv_dropPtp2 (hf h))
  · exact keeps_setMmu rfl (fun h => h.mmu.context) hf

/-! ## ASI 0x04, MMU registers -/

theorem keeps_loadMmuRegister (a : Word) (s : State) : (loadMmuRegister a s).After (Keeps s) := by
  unfold loadMmuRegister
  split
  · exact keeps_drawn s
  · exact keeps_drawn s
  · exact Keeps.refl s
  · exact keeps_setMmu rfl (fun h => h.mmu.context) fun h => { h.mmu.tlbs with }
  · exact Keeps.refl s
  · exact Keeps.refl s
  · trivial

/-- A store of MCNTL that is not refused leaves on only caches that have been cleared (R72, R73, R860). -/
theorem keeps_writeMcntl {w : Word} {s : State} (hu : enablesUncleared w s = false) : Keeps s (writeMcntl w s) := by
  simp only [enablesUncleared, Bool.or_eq_false_iff, Bool.and_eq_false_iff, Bool.not_eq_false'] at hu
  obtain ⟨hic, hdc⟩ := hu
  have instrCache (h : InvParts s) (he : w.getLsbD 9 = true) : s.icacheCleared = true := by
    rcases hic with (hw | hon) | hcl
    · rw [he] at hw; cases hw
    · exact h.mmu.instrCache hon
    · exact hcl
  have dataCache (h : InvParts s) (he : w.getLsbD 8 = true) : dcacheCleared s = true := by
    rcases hdc with (hw | hon) | hcl
    · rw [he] at hw; cases hw
    · exact h.mmu.dataCache hon
    · exact hcl
  unfold writeMcntl
  dsimp only
  split_ifs with hoff
  · simp only [Bool.and_eq_true, Bool.not_eq_true'] at hoff
    refine ⟨rfl, fun h => { h with mmu := ⟨{ h.mmu.tlbs with }, h.mmu.context, instrCache h, fun he => ?_⟩ }⟩
    rw [show (mcntlOfWord w).de = w.getLsbD 8 from rfl, hoff.2] at he
    cases he
  · exact ⟨rfl, fun h => { h with mmu := ⟨{ h.mmu.tlbs with }, h.mmu.context, instrCache h, dataCache h⟩ }⟩

theorem keeps_storeMmuRegister (a v : Word) (s : State) : (storeMmuRegister a v s).After (Keeps s) := by
  unfold storeMmuRegister
  split
  · split_ifs with hu
    · trivial
    · exact keeps_writeMcntl (by simpa using hu)
  · exact keeps_setMmu rfl (fun h => h.mmu.context) fun h =>
      tlbInv_dropPtp0 (tlbInv_dropPtp2 { h.mmu.tlbs with })
  · exact keeps_setMmu rfl (fun _ => contextNumber_contextNumber v) fun h =>
      tlbInv_dropPtp0 (tlbInv_dropPtp2 { h.mmu.tlbs with })
  · trivial
  · trivial
  · exact Keeps.refl s
  · trivial

/-! ## ASI 0x05 and 0x06, TLB entries and pointer caches -/

theorem keeps_loadTlb (data : Bool) (a : Word) (s : State) : (loadTlb data a s).After (Keeps s) := by
  unfold loadTlb
  split <;> first | exact Keeps.refl s | trivial

/-- A stored entry of the I-TLB has neither M nor RBO (D35), and no store locks a whole TLB (R876). -/
theorem keeps_storeEntry {data : Bool} {e : TlbEntry} {s : State} (a : Word)
    (he : InvParts s → data = false → e.m = false ∧ e.rbo = false) : (storeEntry data a e s).After (Keeps s) := by
  unfold storeEntry
  split_ifs with hl
  · trivial
  · rw [Bool.not_eq_true] at hl
    cases data
    · exact keeps_setMmu rfl (fun h => h.mmu.context) fun h =>
        ⟨itlbClean_set h.mmu.tlbs.itlb _ (he h rfl), h.mmu.tlbs.dataUnlocked, hl⟩
    · exact keeps_setMmu rfl (fun h => h.mmu.context) fun h => { h.mmu.tlbs with dataUnlocked := hl }

theorem keeps_setPtp2 (data : Bool) (a : Word) (p : Ptp2) (s : State) : Keeps s (setPtp2 data a p s) := by
  cases data <;> exact keeps_setMmu rfl (fun h => h.mmu.context) fun h => { h.mmu.tlbs with }

theorem keeps_storeTlb (data : Bool) (a v : Word) (s : State) : (storeTlb data a v s).After (Keeps s) := by
  have hs (h : InvParts s) : (selectedEntry false a s).m = false ∧ (selectedEntry false a s).rbo = false :=
    h.mmu.tlbs.itlb (itlbIndex a)
  unfold storeTlb
  split
  · exact keeps_storeEntry a fun h hd => by subst hd; exact ⟨rfl, (hs h).2⟩
  · exact keeps_storeEntry a fun h hd => by subst hd; exact ⟨(hs h).1, rfl⟩
  · split_ifs
    · trivial
    · exact keeps_setMmu rfl (fun h => h.mmu.context) fun h => { h.mmu.tlbs with }
  · split_ifs
    · trivial
    · exact keeps_setPtp2 ..
  · exact keeps_setPtp2 ..
  · trivial

/-! ## ASI 0x0E, 0x36 and 0x37, the caches -/

/-- A change of the tags, after which the lines are cleared if they were. -/
theorem keeps_setDtags {s : State} {tags : Vector DTag 512}
    (ht : s.dtags.toList.all DTag.cleared = true → tags.toList.all DTag.cleared = true) :
    Keeps s { s with dtags := tags } :=
  ⟨rfl, fun h => { h with mmu := { h.mmu with dataCache := fun e => ht (h.mmu.dataCache e) } }⟩

theorem keeps_loadDtag (a : Word) (s : State) : (loadDtag a s).After (Keeps s) := by
  unfold loadDtag
  split_ifs
  · exact keeps_drawn s
  · exact Keeps.refl s

/-- A line that software has cleared counts as cleared whatever is stored to it later. -/
theorem keeps_storeDtag (a : Word) (v : BitVec 64) (s : State) : Keeps s (storeDtag a v s) := by
  refine keeps_setDtags fun h => ?_
  rw [List.all_eq_true] at h ⊢
  have hc (t : DTag) (ht : t ∈ s.dtags) : t.cleared = true := h t (Vector.mem_toList_iff.mpr ht)
  intro t ht
  rcases Vector.mem_or_eq_of_mem_set (Vector.mem_toList_iff.mp ht) with hm | rfl
  · exact hc t hm
  · simp [hc _ (Vector.getElem_mem _)]

theorem keeps_flashClear (s : State) : Keeps s (flashClear s) := keeps_setDtags fun _ => dcacheCleared_flashClear s

theorem keeps_flashClearInstr (s : State) : Keeps s (flashClearInstr s) :=
  ⟨rfl, fun h => { h with mmu := { h.mmu with instrCache := fun _ => rfl } }⟩

/-! ## ASI 0x38 to 0x4C, the monitor -/

theorem keeps_loadBreakpoint (a : Word) (s : State) : (loadBreakpoint a s).After (Keeps s) := by
  unfold loadBreakpoint
  split <;> first | exact Keeps.refl s | trivial

/-- PAMD is never stored (R723). -/
theorem keeps_storeBreakpoint (a : Word) (v : BitVec 64) (s : State) : (storeBreakpoint a v s).After (Keeps s) := by
  unfold storeBreakpoint
  split
  · exact keeps_setMon fun h => { h.mon with }
  · exact keeps_setMon fun h => { h.mon with }
  · split_ifs with hp
    · trivial
    · exact keeps_setMon fun h => { h.mon with physicalMatch := by simpa using hp }
  · trivial

/-- CTRC takes no reserved selection, and no cycle counter that could interrupt (R734, R820). -/
theorem keeps_storeCtrc (v : Word) (s : State) : (storeCtrc v s).After (Keeps s) := by
  unfold storeCtrc
  dsimp only
  split_ifs with hsel hcyc
  · trivial
  · trivial
  · rw [not_or, not_le, not_le] at hsel
    exact keeps_setMon fun h =>
      { h.mon with selectA := hsel.1, selectB := hsel.2, cycles := by simpa using hcyc }

/-- Clearing an enable of ACTION withdraws its pending interrupt (D19). -/
theorem keeps_storeAction (v : BitVec 64) (s : State) : (storeAction v s).After (Keeps s) := by
  have enabled {p i : Bool} (h : (p && i) = true) : i = true := (Bool.and_eq_true_iff.mp h).2
  unfold storeAction
  dsimp only
  split_ifs with hcyc
  · trivial
  · exact keeps_setMon fun h =>
      { h.mon with cycles := by simpa using hcyc, pendA := enabled, pendB := enabled, pendC := enabled, pendD := enabled }

/-- A counter reads as itself, or as a free value while it counts cycles (R820, log 19). -/
theorem keeps_loadCounter (free : Bool) (d : BitVec 64) (c : Word) (s : State) :
    (if free then .ok d (drawn s) else .ok (c.setWidth 64) s : Res (BitVec 64)).After (Keeps s) := by
  split_ifs
  · exact keeps_drawn s
  · exact Keeps.refl s

/-! ## One load and one store for all of them -/

theorem keeps_wordRes {s : State} {x : Res Word} (h : x.After (Keeps s)) : (wordRes x).After (Keeps s) := by
  cases x <;> exact h

theorem keeps_onlyWord {α : Type} {s : State} (w : Width) {x : Res α} (h : x.After (Keeps s)) :
    (onlyWord w x).After (Keeps s) := by
  unfold onlyWord
  split_ifs
  · exact h
  · trivial

theorem keeps_onlyDword {α : Type} {s : State} (w : Width) {x : Res α} (h : x.After (Keeps s)) :
    (onlyDword w x).After (Keeps s) := by
  unfold onlyDword
  split_ifs
  · exact h
  · trivial

theorem keeps_loadAsi (asi : Asi) (w : Width) (a : Word) (s : State) : (loadAsi asi w a s).After (Keeps s) := by
  have hs : Keeps s s := .refl s
  unfold loadAsi
  split
  · trivial
  · exact keeps_onlyWord w (keeps_wordRes (keeps_probeMmu a s))
  · exact keeps_onlyWord w (keeps_wordRes (keeps_loadMmuRegister a s))
  · exact keeps_onlyWord w (keeps_wordRes (keeps_loadTlb false a s))
  · exact keeps_onlyWord w (keeps_wordRes (keeps_loadTlb true a s))
  · trivial
  · trivial
  · exact keeps_onlyDword w (keeps_loadDtag a s)
  · trivial
  · trivial
  · trivial
  · trivial
  · trivial
  · trivial
  · exact keeps_onlyDword w (keeps_loadBreakpoint a s)
  · trivial
  · exact keeps_onlyWord w hs
  · exact keeps_onlyWord w (keeps_loadCounter ..)
  · exact keeps_onlyWord w (keeps_loadCounter ..)
  · exact keeps_onlyWord w hs
  · exact keeps_onlyWord w (keeps_wordRes (keeps_setMon fun h => { h.mon with }))
  · exact keeps_onlyDword w hs
  · exact hs

theorem keeps_storeAsi (asi : Asi) (w : Width) (a : Word) (d : BitVec 64) (s : State) :
    (storeAsi asi w a d s).After (Keeps s) := by
  unfold storeAsi
  dsimp only
  split
  · trivial
  · exact keeps_onlyWord w (keeps_flushMmu a s)
  · exact keeps_onlyWord w (keeps_storeMmuRegister a _ s)
  · exact keeps_onlyWord w (keeps_storeTlb false a _ s)
  · exact keeps_onlyWord w (keeps_storeTlb true a _ s)
  · trivial
  · trivial
  · exact keeps_onlyDword w (keeps_storeDtag a d s)
  · trivial
  · trivial
  · trivial
  · trivial
  · exact keeps_onlyWord w (keeps_flashClearInstr s)
  · exact keeps_onlyWord w (keeps_flashClear s)
  · exact keeps_onlyDword w (keeps_storeBreakpoint a d s)
  · trivial
  · exact keeps_onlyWord w (keeps_setMon fun h => { h.mon with })
  · exact keeps_onlyWord w ⟨rfl, fun h => { h with mon := { h.mon with } }⟩
  · exact keeps_onlyWord w ⟨rfl, fun h => { h with mon := { h.mon with } }⟩
  · exact keeps_onlyWord w (keeps_storeCtrc _ s)
  · trivial
  · exact keeps_onlyDword w (keeps_storeAction d s)
  · exact Keeps.refl s

/-! ## The access primitives -/

theorem keeps_memRead (asi : Asi) (w : Width) (k : DwordKind) (a : Word) (s : State) :
    (memRead asi w k a s).After (Keeps s) := by
  unfold memRead
  split_ifs
  · split
    · exact keeps_loadAsi asi w a s
    · refine keeps_andThen (keeps_memoryTarget ..) fun t u _ => ?_
      cases t with
      | none => exact keeps_drawn u
      | some p => exact Keeps.refl u
  · exact Keeps.refl s

/-- A store at the target of an aligned access keeps memory canonical. -/
theorem keeps_writeTarget {sp : Space} {kind : Access} {w : Width} {a : Word} {s u : State} {p : Target}
    (ha : aligned w a = true) (hp : memoryTarget sp kind a s = .ok (some p) u) (k : DwordKind) (d : BitVec 64) :
    Keeps u (writeTarget w k p d u) :=
  ⟨rfl, fun h => { h with mem := writeTarget_wf ha hp k d h.mem }⟩

theorem keeps_memWrite (asi : Asi) (w : Width) (k : DwordKind) (a : Word) (d : BitVec 64) (s : State) :
    (memWrite asi w k a d s).After (Keeps s) := by
  unfold memWrite
  split_ifs with ha
  · split
    · exact keeps_storeAsi asi w a d s
    · refine keeps_andThen (keeps_memoryTarget ..) fun t u ht => ?_
      cases t with
      | none => exact Keeps.refl u
      | some p => exact keeps_writeTarget ha ht k d
  · exact Keeps.refl s

theorem keeps_memSwap (asi : Asi) (w : Width) (a : Word) (d : BitVec 64) (s : State) :
    (memSwap asi w a d s).After (Keeps s) := by
  unfold memSwap
  by_cases ha : aligned w a = true
  · rw [if_pos ha]
    split
    · split_ifs
      · trivial
      · exact Keeps.refl s
    · refine keeps_andThen (keeps_memoryTarget ..) fun t u ht => ?_
      cases t with
      | none => exact keeps_drawn u
      | some p => exact keeps_writeTarget ha ht .integer d
  · rw [if_neg ha]; exact Keeps.refl s

end Sys2Proof.Machine
end

section
/-! What the instructions and the step keep: one rule for each shared form, the dispatch over the 200 instructions, and the
obligations of the state. -/

namespace Sys2Proof.Machine

open Sys2Proof.Spec

/-! ## Integer arithmetic -/

theorem keeps_writeAdvance (rd : Reg) (v : Word) (s : State) : Keeps s (advance (writeReg rd v s)) :=
  (keeps_writeReg ..).trans (keeps_advance _)

theorem keeps_writeIccAdvance (i : Icc) (rd : Reg) (v : Word) (s : State) :
    Keeps s (advance (setIcc i (writeReg rd v s))) :=
  ((keeps_writeReg ..).trans (keeps_setIcc ..)).trans (keeps_advance _)

theorem aluTrap_keeps (f : Word → Word → Word) (icc : Word → Word → Word → Icc) (rd rs1 : Reg) (o : Opnd2) (s : State) :
    Answers (Keeps s) (aluTrap f icc rd rs1 o s) := by
  unfold aluTrap
  dsimp only
  split_ifs
  · exact keeps_takeTrap ..
  · exact keeps_writeIccAdvance ..

theorem keeps_multiply (f : Word → Word → BitVec 64) (rd rs1 : Reg) (o : Opnd2) (s : State) :
    Keeps s (multiply f rd rs1 o s) := (keeps_writeReg ..).trans (keeps_setY ..)

theorem mulscc_keeps (rd rs1 : Reg) (o : Opnd2) (s : State) : Answers (Keeps s) (execMulscc rd rs1 o s) :=
  (((keeps_writeReg ..).trans (keeps_setIcc ..)).trans (keeps_setY ..)).trans (keeps_advance _)

theorem keeps_divide (wide : Word → Bool) (q : Word → Word → Word → Quotient) (rs1 : Reg) (o : Opnd2) (s : State) :
    (divide wide q rs1 o s).After (Keeps s) := by
  unfold divide
  split_ifs <;> exact Keeps.refl s

theorem divPlain_keeps (wide : Word → Bool) (q : Word → Word → Word → Quotient) (rd rs1 : Reg) (o : Opnd2) (s : State) :
    Answers (Keeps s) (divPlain wide q rd rs1 o s) :=
  keeps_finish (keeps_andThen (keeps_divide ..) fun _ _ _ => keeps_writeAdvance ..)

theorem divCc_keeps (wide : Word → Bool) (q : Word → Word → Word → Quotient) (rd rs1 : Reg) (o : Opnd2) (s : State) :
    Answers (Keeps s) (divCc wide q rd rs1 o s) :=
  keeps_finish (keeps_andThen (keeps_divide ..) fun _ _ _ => keeps_writeIccAdvance ..)

/-! ## Control transfer -/

theorem call_keeps (disp30 : BitVec 30) (s : State) : Answers (Keeps s) (execCall disp30 s) :=
  have hw := keeps_writeReg 15 s.pc s
  ⟨by simp, fun h => (keeps_jump false fun _ => callTarget_aligned disp30 h).inv (hw.inv h)⟩

theorem jmpl_keeps (rd rs1 : Reg) (o : Opnd2) (s : State) : Answers (Keeps s) (execJmpl rd rs1 o s) := by
  unfold execJmpl
  split_ifs with ha
  · exact keeps_takeTrap ..
  · exact (keeps_writeReg ..).trans (keeps_jump false fun _ => not_not.mp ha)

theorem rett_keeps (rs1 : Reg) (o : Opnd2) (s : State) : Answers (Keeps s) (execRett rs1 o s) := by
  unfold execRett
  split_ifs with _ _ _ ha
  · exact keeps_takeTrap ..
  · exact keeps_takeTrap ..
  · exact keeps_takeTrap ..
  · exact keeps_takeTrap ..
  · exact keeps_returnFromTrap (not_not.mp ha) s

theorem moveWindow_keeps (w : BitVec 3) (tt : TrapType) (rd rs1 : Reg) (o : Opnd2) (s : State) :
    Answers (Keeps s) (moveWindow w tt rd rs1 o s) := by
  unfold moveWindow
  split_ifs
  · exact keeps_takeTrap ..
  · exact (keeps_setCwp w s).trans (keeps_writeAdvance ..)

theorem trapIf_keeps (taken : Bool) (rs1 : Reg) (n : TrapNum) (s : State) : Answers (Keeps s) (trapIf taken rs1 n s) := by
  unfold trapIf
  split_ifs
  · exact keeps_takeTrap ..
  · exact keeps_advance s

/-! ## State registers -/

theorem privileged_keeps {s : State} {body : Result} (h : Answers (Keeps s) body) :
    Answers (Keeps s) (privileged s body) := by
  unfold privileged
  split_ifs
  · exact keeps_takeTrap ..
  · exact h

theorem wry_keeps (rs1 : Reg) (o : Opnd2) (s : State) : Answers (Keeps s) (execWry rs1 o s) :=
  (keeps_setY ..).trans (keeps_advance _)

theorem wrwim_keeps (rs1 : Reg) (o : Opnd2) (s : State) : Answers (Keeps s) (execWrwim rs1 o s) :=
  privileged_keeps ((keeps_setWim ..).trans (keeps_advance _))

theorem wrtbr_keeps (rs1 : Reg) (o : Opnd2) (s : State) : Answers (Keeps s) (execWrtbr rs1 o s) :=
  privileged_keeps ((keeps_setTbr ..).trans (keeps_advance _))

theorem flush_keeps (rs1 : Reg) (o : Opnd2) (s : State) : Answers (Keeps s) (execFlush rs1 o s) :=
  ((keeps_setStale ..).trans (keeps_drawn _)).trans (keeps_advance _)

/-- WRPSR writes PSR.DE, so that it is no `Keeps`; of the PSR the invariant says nothing. -/
theorem wrpsr_inv (rs1 : Reg) (o : Opnd2) {s : State} (h : InvParts s) : Answers InvParts (execWrpsr rs1 o s) := by
  have hp : InvParts { s with psr := psrOfWord (writeValue rs1 o s) } := { h with }
  unfold execWrpsr privileged
  split_ifs
  · exact (keeps_takeTrap ..).inv h
  · exact (keeps_takeTrap ..).inv h
  · exact (keeps_advance _).inv hp

/-! ## Loads, stores and atomics -/

theorem loadReg_keeps (w : Width) (ext : BitVec 64 → Word) (asi : Asi) (rd : Reg) (a : Word) (s : State) :
    Answers (Keeps s) (loadReg w ext asi rd a s) :=
  keeps_finish (keeps_andThen (keeps_memRead ..) fun _ _ _ => keeps_writeAdvance ..)

theorem loadPair_keeps (asi : Asi) (rd : Reg) (a : Word) (s : State) : Answers (Keeps s) (loadPair asi rd a s) := by
  unfold loadPair
  split_ifs
  · exact keeps_takeTrap ..
  · exact keeps_finish (keeps_andThen (keeps_memRead ..) fun _ _ _ => (keeps_writeReg ..).trans (keeps_writeAdvance ..))

theorem storeReg_keeps (w : Width) (asi : Asi) (rd : Reg) (a : Word) (s : State) :
    Answers (Keeps s) (storeReg w asi rd a s) :=
  keeps_finish (keeps_andThen (keeps_memWrite ..) fun _ _ _ => keeps_advance _)

theorem storePair_keeps (asi : Asi) (rd : Reg) (a : Word) (s : State) : Answers (Keeps s) (storePair asi rd a s) := by
  unfold storePair
  split_ifs
  · exact keeps_takeTrap ..
  · exact keeps_finish (keeps_andThen (keeps_memWrite ..) fun _ _ _ => keeps_advance _)

theorem loadStoreByte_keeps (asi : Asi) (rd : Reg) (a : Word) (s : State) :
    Answers (Keeps s) (loadStoreByte asi rd a s) :=
  keeps_finish (keeps_andThen (keeps_memSwap ..) fun _ _ _ => keeps_writeAdvance ..)

theorem swapReg_keeps (asi : Asi) (rd : Reg) (a : Word) (s : State) : Answers (Keeps s) (swapReg asi rd a s) :=
  keeps_finish (keeps_andThen (keeps_memSwap ..) fun _ _ _ => keeps_writeAdvance ..)

theorem alternate_keeps (i : Bool) {s : State} {body : Result} (h : Answers (Keeps s) body) :
    Answers (Keeps s) (alternate i s body) := by
  unfold alternate
  split_ifs
  · exact keeps_takeTrap ..
  · exact keeps_takeTrap ..
  · exact h

/-! ## Floating point -/

theorem deliverPending_keeps (s : State) : Answers (Keeps s) (deliverPending s) :=
  keeps_takeTrapWith _ (keeps_enterException s)

theorem sequenceError_keeps (s : State) : Answers (Keeps s) (sequenceError s) :=
  keeps_takeTrapWith _ (keeps_enterSequenceError s)

theorem fpGate_keeps {s : State} {body : Result} (h : Answers (Keeps s) body) : Answers (Keeps s) (fpGate s body) := by
  unfold fpGate
  split_ifs
  · exact keeps_takeTrap ..
  · split
    · exact deliverPending_keeps s
    · exact sequenceError_keeps s
    · exact h

theorem fpMemGate_keeps (isStore : Bool) (w : Width) (a : Word) {s : State} {body : Result} (h : Answers (Keeps s) body) :
    Answers (Keeps s) (fpMemGate isStore w a s body) := by
  unfold fpMemGate
  by_cases he : s.psr.ef = false
  · rw [if_pos he]; exact keeps_takeTrap ..
  rw [if_neg he]
  by_cases ha : aligned w a = false
  · rw [if_pos ha]; exact keeps_takeTrap ..
  rw [if_neg ha]
  split
  · exact deliverPending_keeps s
  · split_ifs
    · exact h
    · exact sequenceError_keeps s
  · exact h

theorem unimplemented_keeps (i : Instr) (s : State) : Answers (Keeps s) (unimplemented i s) :=
  fpGate_keeps (((keeps_setFsr fun _ => by simp).trans (keeps_enqueue i _)).trans (keeps_advance _))

theorem fpop_keeps (i : Instr) (exc : BitVec 5) {write : State → State} (hw : ∀ s, Keeps s (write s)) (s : State) :
    Answers (Keeps s) (fpop i exc write s) :=
  fpGate_keeps ((keeps_deliver i exc hw s).trans (keeps_advance _))

theorem fpopSingle_keeps (i : Instr) (rd : Reg) (r : FloatRes) (s : State) : Answers (Keeps s) (fpopSingle i rd r s) :=
  fpop_keeps i r.exc (keeps_writeF rd _) s

theorem fpopDouble_keeps (i : Instr) (rd : Reg) (r : FloatRes) (s : State) : Answers (Keeps s) (fpopDouble i rd r s) :=
  fpop_keeps i r.exc (keeps_writeD rd _) s

theorem fpopCompare_keeps (i : Instr) (r : BitVec 2 × BitVec 5) (s : State) : Answers (Keeps s) (fpopCompare i r s) :=
  fpop_keeps i r.2 (fun t => keeps_setFsr (r := { t.fsr with fcc := r.1 }) fun h => h.fpu.trapType) s

theorem fpLoad_keeps (w : Width) {put : BitVec 64 → State → State} (hp : ∀ d t, Keeps t (put d t)) (a : Word) (s : State) :
    Answers (Keeps s) (fpLoad w put a s) :=
  fpMemGate_keeps false w a (keeps_finish (keeps_andThen (keeps_memRead ..) fun d t _ => (hp d t).trans (keeps_advance _)))

theorem fpStore_keeps (w : Width) (k : DwordKind) (d : BitVec 64) {after : State → State} (ha : ∀ t, Keeps t (after t))
    (a : Word) (s : State) : Answers (Keeps s) (fpStore w k d after a s) :=
  fpMemGate_keeps true w a (keeps_finish (keeps_andThen (keeps_memWrite ..) fun _ t _ => (ha t).trans (keeps_advance _)))

theorem stdfq_keeps (rd rs1 : Reg) (o : Opnd2) (s : State) : Answers (Keeps s) (execStdfq rd rs1 o s) := by
  refine privileged_keeps ?_
  split
  · exact fpMemGate_keeps true .dword _ (sequenceError_keeps s)
  · exact fpStore_keeps .dword .integer _ keeps_dequeue _ s

/-! ## The instructions -/

/-- Every instruction but WRPSR, with the trap it takes, keeps PSR.DE and the invariant. -/
theorem exec_keeps (i : Instr) (s : State) (hi : ∀ rs1 o, i ≠ .wrpsr rs1 o) : Answers (Keeps s) (exec i s) := by
  cases i with
  | unimp | rdasr | wrasr => exact keeps_takeTrap ..
  | nop | stbar => exact keeps_advance s
  | sethi | rdy => exact keeps_writeAdvance ..
  | rdpsr | rdwim | rdtbr => exact privileged_keeps (keeps_writeAdvance ..)
  | wrpsr rs1 o => exact absurd rfl (hi rs1 o)
  | wry rs1 o => exact wry_keeps rs1 o s
  | wrwim rs1 o => exact wrwim_keeps rs1 o s
  | wrtbr rs1 o => exact wrtbr_keeps rs1 o s
  | flush rs1 o => exact flush_keeps rs1 o s
  | bn | be | ble | bl | bleu | bcs | bneg | bvs | bne | bg | bge | bgu | bcc | bpos | bvc => exact keeps_branchIf ..
  | ba => exact keeps_branchAlways ..
  | fbn | fbne | fblg | fbul | fbl | fbug | fbg | fbu | fbe | fbue | fbge | fbuge | fble | fbule | fbo =>
    exact fpGate_keeps (keeps_branchIf ..)
  | fba => exact fpGate_keeps (keeps_branchAlways ..)
  | call disp30 => exact call_keeps disp30 s
  | jmpl rd rs1 o => exact jmpl_keeps rd rs1 o s
  | rett rs1 o => exact rett_keeps rs1 o s
  | save | restore => exact moveWindow_keeps ..
  | tn rs1 n => exact trapIf_keeps false rs1 n s
  | ta rs1 n => exact trapIf_keeps true rs1 n s
  | te | tle | tl | tleu | tcs | tneg | tvs | tne | tg | tge | tgu | tcc | tpos | tvc => exact trapIf_keeps ..
  | cbn | cb123 | cb12 | cb13 | cb1 | cb23 | cb2 | cb3 | cba | cb0 | cb03 | cb02 | cb023 | cb01 | cb013 | cb012
  | cpop1 | cpop2 | ldc | lddc | ldcsr | stc | stdc | stcsr => exact keeps_takeTrap ..
  | stdcq => exact privileged_keeps (keeps_takeTrap ..)
  | add | addx | sub | subx | and | andn | or | orn | xor | xnor => exact keeps_writeAdvance ..
  | addcc | addxcc | subcc | subxcc | andcc | andncc | orcc | orncc | xorcc | xnorcc | taddcc | tsubcc =>
    exact keeps_writeIccAdvance ..
  | taddcctv | tsubcctv => exact aluTrap_keeps ..
  | sll | srl | sra => exact keeps_writeAdvance ..
  | mulscc rd rs1 o => exact mulscc_keeps rd rs1 o s
  | umul | smul => exact (keeps_multiply ..).trans (keeps_advance _)
  | umulcc | smulcc => exact ((keeps_multiply ..).trans (keeps_setIcc ..)).trans (keeps_advance _)
  | udiv | sdiv => exact divPlain_keeps ..
  | udivcc | sdivcc => exact divCc_keeps ..
  | ld | ldub | lduh | ldsb | ldsh => exact loadReg_keeps ..
  | ldd => exact loadPair_keeps ..
  | st | stb | sth => exact storeReg_keeps ..
  | std => exact storePair_keeps ..
  | ldstub => exact loadStoreByte_keeps ..
  | swap => exact swapReg_keeps ..
  | lda | lduba | lduha | ldsba | ldsha => exact alternate_keeps _ (loadReg_keeps ..)
  | ldda => exact alternate_keeps _ (loadPair_keeps ..)
  | sta | stba | stha => exact alternate_keeps _ (storeReg_keeps ..)
  | stda => exact alternate_keeps _ (storePair_keeps ..)
  | ldstuba => exact alternate_keeps _ (loadStoreByte_keeps ..)
  | swapa => exact alternate_keeps _ (swapReg_keeps ..)
  | fmovs | fnegs | fabss => exact fpop_keeps _ _ (keeps_writeF _ _) s
  | fadds | fsubs | fmuls | fdivs | fsqrts | fitos | fstoi | fdtoi | fdtos => exact fpopSingle_keeps ..
  | faddd | fsubd | fmuld | fdivd | fsmuld | fsqrtd | fitod | fstod => exact fpopDouble_keeps ..
  | fcmps | fcmpd | fcmpes | fcmped => exact fpopCompare_keeps ..
  | faddq | fsubq | fmulq | fdivq | fdmulq | fsqrtq | fitoq | fstoq | fdtoq | fqtoi | fqtos | fqtod | fcmpq | fcmpeq
  | fpop1Other | fpop2Other => exact unimplemented_keeps ..
  | ldf => exact fpLoad_keeps .word (fun _ => keeps_writeF _ _) _ s
  | lddf => exact fpLoad_keeps .dword (keeps_writeD _) _ s
  | ldfsr => exact fpLoad_keeps .word (fun _ t => keeps_setFsr (r := fsrLoad _ t.fsr) fun h => h.fpu.trapType) _ s
  | stf | stdf => exact fpStore_keeps _ .float _ Keeps.refl _ s
  | stfsr => exact fpStore_keeps .word .float _ (fun _ => keeps_setFsr fun _ => by simp) _ s
  | stdfq rd rs1 o => exact stdfq_keeps rd rs1 o s

/-- Every instruction keeps the invariant. -/
theorem exec_inv (i : Instr) {s : State} (h : InvParts s) : Answers InvParts (exec i s) := by
  by_cases hw : ∃ rs1 o, i = .wrpsr rs1 o
  · obtain ⟨rs1, o, rfl⟩ := hw
    exact wrpsr_inv rs1 o h
  · exact (exec_keeps i s fun rs1 o e => hw ⟨rs1, o, e⟩).imp fun _ k => k.inv h

/-! ## The step -/

theorem keeps_fetchWord (pa : PAddr) (s : State) : Keeps s (fetchWord pa s).2 := by
  rcases fetchWord_state pa s with e | e <;> rw [e]
  · exact .refl s
  · exact keeps_drawn s

theorem runInstruction_inv {s t : State} (h : InvParts s) (e : runInstruction s = .next t) : InvParts t := by
  have hf := keeps_fetchTarget s
  rcases runInstruction_eq_next e with ⟨tt, u, hu, rfl⟩ | ⟨pa, u, hu, ⟨i, -, hx⟩ | ⟨err, -, rfl⟩⟩ <;> rw [hu] at hf
  · exact (keeps_takeTrapWith tt hf).inv h
  · exact (exec_inv i ((Keeps.trans hf (keeps_fetchWord pa u)).inv h)).of_eq hx
  · exact (keeps_takeTrapWith _ (Keeps.trans hf (keeps_fetchWord pa u))).inv h

/-- A counter makes its interrupt pending only where ACTION enables it (R784). -/
theorem keeps_count (old new : State) : Keeps new (count old new) := by
  have enabled {p z i l : Bool} (hp : p = true → i = true) (h : (p || (z && i && l)) = true) : i = true := by
    simp only [Bool.or_eq_true, Bool.and_eq_true] at h
    exact h.elim hp fun g => g.1.2
  unfold count
  dsimp only
  split_ifs
  · exact ⟨rfl, fun h => { h with mon := { h.mon with pendA := enabled h.mon.pendA, pendB := enabled h.mon.pendB } }⟩
  · exact .refl new

theorem keeps_takeInterrupt (s : State) : Keeps s (takeInterrupt s) := by
  unfold takeInterrupt
  dsimp only
  split_ifs
  · exact (keeps_takeTrap ..).trans
      (keeps_setMon fun h => { h.mon with pendA := nofun, pendB := nofun, pendC := nofun, pendD := nofun })
  · exact keeps_takeTrap ..

theorem keeps_beginStep (s : State) : Keeps s (beginStep s) := ⟨rfl, fun h => { h with }⟩

theorem keeps_interruptStep (s : State) : Keeps s (interruptStep s) :=
  Keeps.trans (t := { takeInterrupt s with wroteA := false, wroteB := false, irl := s.irl.tail })
    ⟨(keeps_takeInterrupt s).de, fun h => { (keeps_takeInterrupt s).inv h with }⟩ (keeps_count ..)

/-- A step keeps the invariant: an interrupt, or the instruction at pc and then the counters. -/
theorem step_inv {s t : State} (h : InvParts s) (e : step s = .next t) : InvParts t := by
  obtain ⟨-, ⟨-, rfl⟩ | ⟨u, hu, rfl⟩⟩ := step_eq_next e
  · exact (keeps_interruptStep s).inv h
  · exact (keeps_count ..).inv (runInstruction_inv ((keeps_beginStep s).inv h) hu)

/-! ## The windows (R32, R33) -/

theorem slot_of_global (w : BitVec 3) {r : Reg} (h : r.toNat < 8) : slot w r = r.toNat := if_pos h

theorem slot_of_windowed (w : BitVec 3) {r : Reg} (h : ¬ r.toNat < 8) : slot w r = 8 + (windowIndex w r).val := if_neg h

/-- An in register is the out register of the window above. -/
theorem slot_in_eq_out (w : BitVec 3) {r : Reg} (h : 24 ≤ r.toNat) : slot w r = slot (w + 1) (r - 16) := by
  have hr := r.isLt
  have hw := w.isLt
  have hsub : (r - 16).toNat = r.toNat - 16 := by rw [BitVec.toNat_sub]; simp; omega
  have hadd : (w + 1).toNat = (w.toNat + 1) % 8 := BitVec.toNat_add w 1
  rw [slot_of_windowed w (by omega), slot_of_windowed (w + 1) (by omega)]
  simp only [windowIndex, hsub, hadd]
  omega

/-- A local register stands where no other register of any window does. -/
theorem slot_local_injective {w w' : BitVec 3} {r q : Reg} (hl : 16 ≤ r.toNat) (hu : r.toNat < 24)
    (h : slot w r = slot w' q) : w = w' ∧ r = q := by
  have hw := w.isLt
  have hw' := w'.isLt
  have hq := q.isLt
  rw [slot_of_windowed w (by omega)] at h
  by_cases g : q.toNat < 8
  · rw [slot_of_global w' g] at h
    omega
  · rw [slot_of_windowed w' g] at h
    simp only [windowIndex] at h
    exact ⟨BitVec.eq_of_toNat_eq (by omega), BitVec.eq_of_toNat_eq (by omega)⟩

/-- Two names of one place: both are the same global, or both name the same windowed register. -/
theorem slot_eq_cases {w w' : BitVec 3} {r q : Reg} (h : slot w r = slot w' q) :
    (r.toNat < 8 ∧ r = q) ∨ (¬ r.toNat < 8 ∧ ¬ q.toNat < 8 ∧ windowIndex w r = windowIndex w' q) := by
  by_cases hr : r.toNat < 8 <;> by_cases hq : q.toNat < 8
  · rw [slot_of_global w hr, slot_of_global w' hq] at h
    exact .inl ⟨hr, BitVec.eq_of_toNat_eq h⟩
  · rw [slot_of_global w hr, slot_of_windowed w' hq] at h
    omega
  · rw [slot_of_windowed w hr, slot_of_global w' hq] at h
    omega
  · rw [slot_of_windowed w hr, slot_of_windowed w' hq] at h
    exact .inr ⟨hr, hq, Fin.ext (by omega)⟩

/-- A register other than `%g0` reads what has been written under any name of its place. -/
theorem readRegIn_writeRegIn_of_slot_eq {w w' : BitVec 3} {r q : Reg} (h : slot w r = slot w' q) (hr : r ≠ 0) (v : Word)
    (s : State) : readRegIn w r (writeRegIn w' q v s) = v := by
  rcases slot_eq_cases h with ⟨g, rfl⟩ | ⟨gr, gq, hi⟩
  · rw [readRegIn_global w hr g, writeRegIn_global w' hr g]
    simp
  · simp [readRegIn_windowed w gr, writeRegIn_windowed w' gq, hi]

/-- A register at another place does not change. -/
theorem readRegIn_writeRegIn_of_slot_ne {w w' : BitVec 3} {r q : Reg} (h : slot w r ≠ slot w' q) (v : Word) (s : State) :
    readRegIn w r (writeRegIn w' q v s) = readRegIn w r s := by
  by_cases hr : r.toNat < 8
  · by_cases e : r = q
    · subst e
      exact absurd ((slot_of_global w hr).trans (slot_of_global w' hr).symm) h
    · exact readRegIn_writeRegIn_of_global_ne w w' hr e v s
  · by_cases hq : q.toNat < 8
    · exact readRegIn_writeRegIn_of_global w w' hr hq v s
    · rw [slot_of_windowed w hr, slot_of_windowed w' hq] at h
      exact readRegIn_writeRegIn_of_index_ne w w' hr hq (fun e => h (by rw [e])) v s

/-! ## The obligations -/

/-- Settles O8: the instruction at pc, an interrupt and the counters each keep every part of the invariant. -/
theorem stepKeepsInvariant : Obligations.StepKeepsInvariant := by
  intro s t h e
  exact (inv_iff_parts t).mpr (step_inv ((inv_iff_parts s).mp h) e)

/-- Settles O27, by the places of R33 that two register names share. -/
theorem windowsOverlap : Obligations.WindowsOverlap := by
  intro w w' r q v s
  exact ⟨slot_in_eq_out w, slot_local_injective, fun h hr => readRegIn_writeRegIn_of_slot_eq h hr v s,
    fun h => readRegIn_writeRegIn_of_slot_ne h v s⟩

/-- Settles O39: every rule of the development but that of WRPSR keeps PSR.DE, traps included. -/
theorem byteOrderChangedOnlyByWrpsr : Obligations.ByteOrderChangedOnlyByWrpsr := by
  intro i s t e hi
  exact ((exec_keeps i s hi).of_eq e).de

end Sys2Proof.Machine
end

section
/-! How `Spec.Frame` goes through the operations an instruction ends with: one rule for each, so that the frame of an
instruction is put together along its meaning. -/

namespace Sys2Proof.Spec

open Sys2Proof.Machine

/-! ## Frames -/

/-- A state that did not change lies within every frame. -/
theorem Frame.refl (w : Writes) (s : State) : Frame w s s where
  regs _ _ _ := rfl
  fregs _ _ := rfl
  mem _ _ := rfl
  icc _ := ⟨rfl, rfl, rfl, rfl⟩
  cwp _ := rfl
  mode _ := ⟨rfl, rfl, rfl⟩
  control _ := ⟨rfl, rfl, rfl, rfl⟩
  wim _ := rfl
  tba _ := rfl
  tt _ := rfl
  y _ := rfl
  fsr _ := rfl
  queue _ := ⟨rfl, rfl⟩
  mmu _ := rfl
  dtags _ := ⟨rfl, rfl⟩
  monitor _ := rfl
  stale _ _ := rfl
  replaced _ _ _ := ⟨.inl, fun h => h.elim id fun r => absurd r.2.1.symm r.2.2.1⟩
  irl := rfl
  errorMode := rfl

section Operations

variable {w : Writes} {s u : State} (h : Frame w s u)
include h

theorem Frame.drawn : Frame w s (Machine.drawn u) := { h with }

theorem Frame.advance : Frame w s (Machine.advance u) := { h with }

/-- A write of a register that the frame lists. -/
theorem Frame.writeRegIn {v : BitVec 3} {r : Reg} (hr : slot v r ∈ w.slots) (x : Word) :
    Frame w s (Machine.writeRegIn v r x u) := by
  have hregs : ∀ v' r', slot v' r' ∉ w.slots → readRegIn v' r' (Machine.writeRegIn v r x u) = readRegIn v' r' s :=
    fun v' r' hn =>
      have hne : slot v' r' ≠ slot v r := fun e => hn (e ▸ hr)
      (readRegIn_writeRegIn_of_slot_ne hne x u).trans (h.regs v' r' hn)
  unfold Machine.writeRegIn at hregs ⊢
  split_ifs at hregs ⊢
  · exact h
  · exact { h with regs := hregs }
  · exact { h with regs := hregs }

theorem Frame.writeReg {r : Reg} (hr : slot u.psr.cwp r ∈ w.slots) (x : Word) : Frame w s (Machine.writeReg r x u) :=
  h.writeRegIn hr x

theorem Frame.setMon (hm : w.monitor = true) (m : Monitor) : Frame w s { u with mon := m } :=
  { h with monitor := fun e => absurd (hm.symm.trans e) (by decide) }

theorem Frame.setMmu (hm : w.mmu = true) (m : Mmu) : Frame w s { u with mmu := m } :=
  { h with mmu := fun e => absurd (hm.symm.trans e) (by decide) }

end Operations

/-- What the entry into a trap handler writes beside what its cause has written. -/
theorem Frame.takeTrap {w : Writes} {s u : State} (h : Frame w s u) (he : u.psr.et = true) (tt : TrapType)
    (h17 : slot (u.psr.cwp - 1) 17 ∈ w.slots) (h18 : slot (u.psr.cwp - 1) 18 ∈ w.slots) (hm : w.mode = true)
    (hc : w.cwp = true) (ht : w.tt = true) : Frame w s (Machine.takeTrap tt u) := by
  have g := (h.writeRegIn h17 u.pc).writeRegIn h18 u.npc
  have hp : (Machine.writeRegIn (u.psr.cwp - 1) 18 u.npc (Machine.writeRegIn (u.psr.cwp - 1) 17 u.pc u)).psr = u.psr := by
    simp
  have hb : (Machine.writeRegIn (u.psr.cwp - 1) 18 u.npc (Machine.writeRegIn (u.psr.cwp - 1) 17 u.pc u)).tbr = u.tbr := by
    simp
  rw [takeTrap_of_et he]
  exact
    { g with
      icc := hp ▸ g.icc
      control := hp ▸ g.control
      tba := hb ▸ g.tba
      mode := fun e => absurd (hm.symm.trans e) (by decide)
      cwp := fun e => absurd (hc.symm.trans e) (by decide)
      tt := fun e => absurd (ht.symm.trans e) (by decide) }

/-! ## The destination register of an instruction that completes -/

theorem holds_advance_writeReg (rd : Reg) (v : Word) (u : State) : Holds rd v (advance (writeReg rd v u)) :=
  readReg_writeReg_same rd v u

end Sys2Proof.Spec
end

section
/-! The step and the word it fetches (R152, R205, R440). -/

namespace Sys2Proof.Machine

open Sys2Proof.Spec

/-- Where no interrupt is accepted, a step is the instruction at pc, with the counters brought up to date. -/
theorem step_of_not_interrupted {s : State} (he : s.errorMode = false) (hi : interrupted s = false) :
    step s = counter (beginStep s) (runInstruction (beginStep s)) := by
  simp [step, runStep, he, hi]

/-- With both counters off the counters leave every outcome as it is. -/
theorem counter_off {old : State} (h : CountersOff old) (r : Result) : counter old r = r := by
  cases r with
  | next t => exact congrArg _ (count_off h.1 h.2 t)
  | fault e => rfl
  | refused e => rfl

theorem runInstruction_of_fetch_trap {s t : State} {tt : TrapType} (h : fetchTarget s = .trap tt t) :
    runInstruction s = .next (takeTrapWith tt s t) := by
  simp only [runInstruction, h]

theorem runInstruction_of_decoded {s t : State} {pa : PAddr} {i : Instr} (h : fetchTarget s = .ok pa t)
    (hd : decodeWord (fetchWord pa t).1 = .ok i) : runInstruction s = exec i (fetchWord pa t).2 := by
  simp only [runInstruction, h, hd]

theorem runInstruction_of_reserved {s t : State} {pa : PAddr} (h : fetchTarget s = .ok pa t)
    (hd : decodeWord (fetchWord pa t).1 = .error .reservedBits) : runInstruction s = .refused .reservedBits := by
  simp only [runInstruction, h, hd]

/-- The fetch of a word changes nothing but the count of free values. -/
theorem fetchWord_only (pa : PAddr) (t : State) : (fetchWord pa t).2 = { t with fresh := (fetchWord pa t).2.fresh } := by
  rcases fetchWord_state pa t with e | e <;> rw [e]
  rfl

/-- The translation of a fetch does not move the program counter. -/
theorem fetchTarget_pc {s t : State} {pa : PAddr} (h : fetchTarget s = .ok pa t) : t.pc = s.pc := by
  have r := reached_fetchTarget s
  rw [h] at r
  rw [r.only]

/-- Settles O5, by the cases of `runInstruction`. -/
theorem stepRunsDecodedInstruction : Obligations.StepRunsDecodedInstruction := by
  intro s he hi
  rw [step_of_not_interrupted he hi]
  refine ⟨fun t pa hf => ?_, fun tt t hf => by rw [runInstruction_of_fetch_trap hf]⟩
  have hpc : t.pc = s.pc := fetchTarget_pc (s := beginStep s) hf
  refine ⟨?_, fun hs => ?_, fetchWord_only pa t, fun i hd => ?_, fun hd => ?_⟩
  · have := mem_fetchChoices.mp (fetchWord_mem pa t)
    rwa [hpc] at this
  · rw [fetchWord_of_unseen (hpc.symm ▸ hs)]
    exact ⟨rfl, rfl⟩
  · rw [runInstruction_of_decoded hf hd]
    exact ⟨rfl, fun hc => counter_off hc _⟩
  · rw [runInstruction_of_reserved hf hd]
    rfl

end Sys2Proof.Machine
end

section
/-! What a translation leaves alone: from the laws that say how a translation ends to the frames of `Spec`. -/

namespace Sys2Proof.Machine

open Sys2Proof.Spec

/-! ## Breakpoints -/

theorem watched_iff {m : Monitor} {a : Word} : Watched m a ↔ breakMatch a m = true := (breakMatch_iff a m).symm

/-- Which enable of BKC a data access looks at is off when both are. -/
theorem NoDataBreak.enable {s : State} (h : NoDataBreak s) (st : Bool) :
    s.mon.bkc.getLsbD (if st then 0 else 1) = false := by
  cases st
  · exact h.1
  · exact h.2

/-- With no data breakpoint enabled an access goes where its page is. -/
theorem dataTarget_of_noDataBreak (q : Request) {s : State} (h : NoDataBreak s) : dataTarget q s = dataPage q s :=
  dataTarget_eq_dataPage (NoDataBreak.enable h)

/-! ## How the translation to a page ends -/

/-- The TLB and the level-2 pointers of the other side are as they were. -/
structure OtherSideKept (data : Bool) (s u : State) : Prop where
  instr : data = true → u.mmu.itlb = s.mmu.itlb ∧ u.mmu.iptp2 = s.mmu.iptp2
  data : data = false → u.mmu.dtlb = s.mmu.dtlb ∧ u.mmu.dptp2 = s.mmu.dptp2

/-- A translation with a target: MFSR and MFAR stay, and at most the PTE of its walk is written. -/
structure Granted (data : Bool) (va : Word) (s u : State) : Prop where
  only : Translated s u
  side : OneSide data s u
  pte : PteWritten (walk data va s).last.addr s u

/-- A fault of the MMU that has been recorded: nothing is written to memory and to the TLBs, and a fetch keeps MFAR. -/
structure FaultKept (data : Bool) (s u : State) : Prop where
  only : Translated s u
  side : OtherSideKept data s u
  kept : Unwritten s u
  far : data = false → u.mmu.far = s.mmu.far

/-- A fault of the MMU before it is recorded keeps MFSR and MFAR too. -/
theorem faultKept_recordFault {data : Bool} {s v : State} (t : Translated s v) (o : OneSide data s v) (k : Unwritten s v)
    (q : Request) (ft : BitVec 3) (l : BitVec 2) : FaultKept data s (recordFault data q ft l v) where
  only := t.trans (translated_recordFault ..)
  side := ⟨o.instr, o.data⟩
  kept := ⟨k.mem, k.stale, k.dtlb, k.itlb⟩
  far e := by subst e; exact o.far

/-- Everything the translation of a data access to its page can answer. -/
theorem dataPage_cases (q : Request) (s : State) :
    match dataPage q s with
    | .ok (some _) u => Granted true q.va s u
    | .ok none u => FaultKept true s u
    | .trap tt u => tt = ttDataAccess ∧ FaultKept true s u
    | .fault _ => True
    | .refused _ => True := by
  have ht := translated_data q s
  have he := ends_data q s
  unfold dataPage
  cases hn : s.mmu.cntl.en
  · exact ⟨.refl s, .refl true s, .refl _ s⟩
  · cases hx : translateData q s with
    | ok t u =>
      rw [hx] at ht he
      exact ⟨ht, he.1, he.2⟩
    | deadlock => trivial
    | mmuFault ft l v =>
      rw [hx] at ht he
      have hk := faultKept_recordFault ht he.1 he.2 q ft l
      simp only [if_true]
      split_ifs
      · exact hk
      · exact ⟨rfl, hk⟩

/-- Everything the translation of a fetch to its page can answer. -/
theorem fetchPage_cases (va : Word) (s : State) :
    match fetchPage va s with
    | .ok _ u => Granted false va s u
    | .trap tt u => tt = ttInstructionAccess ∧ FaultKept false s u
    | .fault _ => True
    | .refused _ => True := by
  have ht := translated_fetch (fetchRequest va s) s
  have he := ends_fetch (fetchRequest va s) s
  unfold fetchPage
  cases hn : s.mmu.cntl.en
  · exact ⟨.refl s, .refl false s, .refl _ s⟩
  · cases hx : translateFetch (fetchRequest va s) s with
    | ok t u =>
      rw [hx] at ht he
      exact ⟨ht, he.1, he.2⟩
    | deadlock => trivial
    | mmuFault ft l v =>
      rw [hx] at ht he
      exact ⟨rfl, faultKept_recordFault ht he.1 he.2 ..⟩

/-! ## The frame of a translation -/

theorem Unwritten.pteWritten {s u : State} (h : Unwritten s u) (a : PAddr) : PteWritten a s u :=
  ⟨0, 0, h.mem.trans (by simp [writePte]), h.stale.trans (by simp [writePte])⟩

/-- A write of a PTE leaves every byte outside it. -/
theorem readByte_writePte_outside {a : PAddr} {c : Nat} (h : c ∉ byteRange a.toNat 4) (old new : Word) (s : State) :
    Memory.readByte (writePte a old new s).mem c = Memory.readByte s.mem c := by
  unfold writePte
  split_ifs
  · rfl
  · rw [mem_byteRange] at h
    exact storeBytes_readByte_outside a _ s (by rw [splitBytes_length]; omega)

/-- The frame of a translation: the MMU, one PTE, and what a breakpoint makes pending. -/
theorem frame_of_pteWritten {s u : State} {a : PAddr} (ha : a.toNat % 4 = 0) (r : Reached s u) (p : PteWritten a s u) :
    Frame { mmu := true, bytes := byteRange a.toNat 4, monitor := true } s u := by
  obtain ⟨old, new, hm, hs⟩ := p
  have hmem : ∀ c, c ∉ byteRange a.toNat 4 → Memory.readByte u.mem c = Memory.readByte s.mem c :=
    fun c hc => by rw [hm, readByte_writePte_outside hc]
  have hstale : ∀ e, e ∈ u.stale ↔ e ∈ s.stale ∨ Replaced (byteRange a.toNat 4) s u e := fun e => by
    rw [hs, mem_writePte_stale ha]
    simp only [Replaced, hm]
  have ho := r.only
  generalize u.mmu = m, u.mem = mem, u.stale = stale, u.fresh = fresh, u.mon = mon at ho hmem hstale
  subst ho
  exact
    { Frame.refl _ s with
      mem := hmem
      mmu := nofun
      monitor := nofun
      stale := fun _ e => absurd e (by simp [byteRange])
      replaced := fun _ _ => hstale }

/-- The frame of an MMU fault: the MMU alone. -/
theorem frame_of_unwritten {w : Writes} {s u : State} (hw : w.mmu = true) (t : Translated s u) (k : Unwritten s u) :
    Frame w s u := by
  have ho := t.only
  rw [k.mem, k.stale] at ho
  rw [ho]
  exact { (Frame.refl w s).setMmu hw u.mmu with }

theorem reached_pcs {s u : State} (r : Reached s u) : u.pc = s.pc ∧ u.npc = s.npc ∧ u.psr = s.psr ∧ u.tbr = s.tbr := by
  rw [r.only]; exact ⟨rfl, rfl, rfl, rfl⟩

/-- What every translation for `va` keeps, with a target or without, and whatever a breakpoint adds. -/
structure Walked (data : Bool) (va : Word) (s u : State) : Prop where
  reached : Reached s u
  side : OtherSideKept data s u
  pte : PteWritten (walk data va s).last.addr s u

theorem Granted.walked {data : Bool} {va : Word} {s u : State} (g : Granted data va s u) : Walked data va s u :=
  ⟨g.only.reached, ⟨g.side.instr, g.side.data⟩, g.pte⟩

theorem FaultKept.walked {data : Bool} {s u : State} (f : FaultKept data s u) (va : Word) : Walked data va s u :=
  ⟨f.only.reached, f.side, f.kept.pteWritten _⟩

/-- A breakpoint that faults records it in MFSR and MFAR. -/
theorem Walked.recordBreak {data : Bool} {va : Word} {s v : State} (h : Walked data va s v) (q : Request) :
    Walked data va s (recordBreak data q v) :=
  ⟨h.reached.trans (translated_recordBreak data q v).reached, ⟨h.side.instr, h.side.data⟩, h.pte⟩

theorem Walked.requestData {data : Bool} {va : Word} {s v : State} (h : Walked data va s v) :
    Walked data va s (requestData v) :=
  ⟨h.reached.trans (reached_requestData v), ⟨h.side.instr, h.side.data⟩, h.pte⟩

theorem Walked.requestCode {data : Bool} {va : Word} {s v : State} (h : Walked data va s v) :
    Walked data va s (requestCode v) :=
  ⟨h.reached.trans (reached_requestCode v), ⟨h.side.instr, h.side.data⟩, h.pte⟩

theorem Walked.translation {data : Bool} {va : Word} {s u : State} (h : Walked data va s u) : Translation data va s u := by
  obtain ⟨r, o, p⟩ := h
  obtain ⟨hpc, hnpc, -⟩ := reached_pcs r
  refine ⟨hpc, hnpc, frame_of_pteWritten (walk_aligned data va s) r p, ?_, r.mon, r.wf⟩
  have hc := r.cntl
  have hp := r.ctp
  have hx := r.ctx
  cases data
  · obtain ⟨hd, hq⟩ := o.data rfl
    dsimp only
    rw [← hc, ← hp, ← hx, ← hd, ← hq]
    rfl
  · obtain ⟨hi, hq⟩ := o.instr rfl
    dsimp only
    rw [← hc, ← hp, ← hx, ← hi, ← hq]
    rfl

theorem FaultKept.denied {data : Bool} {s u : State} (f : FaultKept data s u) (va : Word) : Denied data va s u :=
  ⟨(f.walked va).translation, frame_of_unwritten rfl f.only f.kept, f.kept.dtlb, f.kept.itlb⟩

/-! ## Data accesses -/

/-- What the translation of a data access leaves alone. -/
def DataFrame (va : Word) (s : State) : Res (Option Target) → Prop
  | .ok (some _) u => Translation true va s u ∧ u.mmu.fsr = s.mmu.fsr ∧ u.mmu.far = s.mmu.far ∧
      u.mon.pendC = s.mon.pendC ∧ (NoDataBreak s → u.mon = s.mon)
  | .ok none u => Translation true va s u ∧ u.mon.pendC = s.mon.pendC ∧ (NoDataBreak s → Denied true va s u ∧ u.mon = s.mon)
  | .trap tt u => tt = 0x09 ∧ Translation true va s u ∧ u.mon = s.mon ∧ (NoDataBreak s → Denied true va s u)
  | .fault _ => True
  | .refused _ => True

theorem dataFrame_dataPage (q : Request) (s : State) : DataFrame q.va s (dataPage q s) := by
  have h := dataPage_cases q s
  cases hp : dataPage q s with
  | ok t u =>
    rw [hp] at h
    cases t with
    | some p =>
      have hm := h.only.mon
      exact ⟨h.walked.translation, h.side.fsr, h.side.far, by rw [hm], fun _ => hm⟩
    | none =>
      have hm := h.only.mon
      exact ⟨(h.walked q.va).translation, by rw [hm], fun _ => ⟨h.denied q.va, hm⟩⟩
  | trap tt u =>
    rw [hp] at h
    exact ⟨h.1, (h.2.walked q.va).translation, h.2.only.mon, fun _ => h.2.denied q.va⟩
  | fault r => trivial
  | refused r => trivial

/-- The data breakpoint adds what it records or requests; it does neither where none is enabled. -/
theorem dataFrame_dataTarget (q : Request) (s : State) : DataFrame q.va s (dataTarget q s) := by
  by_cases hn : NoDataBreak s
  · rw [dataTarget_of_noDataBreak q hn]
    exact dataFrame_dataPage q s
  have g := dataFrame_dataPage q s
  have h := dataPage_cases q s
  unfold dataTarget
  cases hp : dataPage q s with
  | ok t v =>
    rw [hp] at h g
    have hw : Walked true q.va s v := by
      cases t with
      | some p => exact h.walked
      | none => exact h.walked q.va
    have hm : v.mon = s.mon := by
      cases t with
      | some p => exact h.only.mon
      | none => exact h.only.mon
    rw [andThen_ok]
    split_ifs
    · exact ⟨rfl, (hw.recordBreak q).translation, hm, fun e => absurd e hn⟩
    · cases t with
      | some p => exact ⟨hw.requestData.translation, h.side.fsr, h.side.far, by simp [requestData, hm], fun e => absurd e hn⟩
      | none => exact ⟨hw.requestData.translation, by simp [requestData, hm], fun e => absurd e hn⟩
    · exact g
  | trap tt v => rw [hp] at g; exact g
  | fault r => trivial
  | refused r => trivial

/-- The frame of the translation in any address space: outside 0x08 to 0x0B nothing changes. -/
theorem dataFrame_memoryTarget (sp : Space) (kind : Access) (a : Word) (s : State) :
    DataFrame a s (memoryTarget sp kind a s) := by
  have hw : Walked true a s s := ⟨.refl s, ⟨fun _ => ⟨rfl, rfl⟩, fun _ => ⟨rfl, rfl⟩⟩, .refl _ s⟩
  unfold memoryTarget
  cases sp with
  | translated instr user => exact dataFrame_dataTarget _ s
  | bypass high => exact ⟨hw.translation, rfl, rfl, rfl, fun _ => rfl⟩
  | special => exact ⟨hw.translation, rfl, fun _ => ⟨⟨hw.translation, .refl _ s, rfl, rfl⟩, rfl⟩⟩

/-! ## Fetches -/

/-- What the translation of the fetch at pc leaves alone, and what more where the code breakpoint is `off`. -/
def FetchFrame (off : Prop) (s : State) : Res PAddr → Prop
  | .ok _ u => Translation false s.pc s u ∧ u.mmu.fsr = s.mmu.fsr ∧ u.mmu.far = s.mmu.far ∧
      u.mon.pendD = s.mon.pendD ∧ (off → u.mon = s.mon)
  | .trap tt u => tt = 0x01 ∧ Translation false s.pc s u ∧ u.mmu.far = s.mmu.far ∧ u.mon = s.mon ∧
      (off → Denied false s.pc s u)
  | .fault _ => True
  | .refused _ => True

theorem fetchFrame_fetchPage (off : Prop) (s : State) : FetchFrame off s (fetchPage s.pc s) := by
  have h := fetchPage_cases s.pc s
  cases hp : fetchPage s.pc s with
  | ok t u =>
    rw [hp] at h
    have hm := h.only.mon
    exact ⟨h.walked.translation, h.side.fsr, h.side.far, by rw [hm], fun _ => hm⟩
  | trap tt u =>
    rw [hp] at h
    exact ⟨h.1, (h.2.walked s.pc).translation, h.2.far rfl, h.2.only.mon, fun _ => h.2.denied s.pc⟩
  | fault r => trivial
  | refused r => trivial

theorem fetchFrame_fetchTarget (s : State) : FetchFrame (s.mon.bkc.getLsbD 3 = false) s (fetchTarget s) := by
  have g := fetchFrame_fetchPage (s.mon.bkc.getLsbD 3 = false) s
  have h := fetchPage_cases s.pc s
  unfold fetchTarget
  cases hp : fetchPage s.pc s with
  | ok t v =>
    rw [hp] at h g
    have hm := h.only.mon
    have on : codeBreak v = true → ¬ s.mon.bkc.getLsbD 3 = false := fun hb hoff => by
      rw [codeBreak, hm, hoff] at hb
      exact absurd hb (by simp)
    rw [andThen_ok]
    split_ifs with hb
    · exact ⟨rfl, (h.walked.recordBreak _).translation, h.side.far, hm, fun e => absurd e (on hb)⟩
    · exact ⟨h.walked.requestCode.translation, h.side.fsr, h.side.far, by simp [requestCode, hm],
        fun e => absurd e (on hb)⟩
    · exact g
  | trap tt v => rw [hp] at g; exact g
  | fault r => trivial
  | refused r => trivial

/-- Settles O45: the frame of each way a translation can end. -/
theorem translationFrame : Obligations.TranslationFrame := by
  refine ⟨fun asi kind a s u => ?_, fun s u => ?_⟩
  · have h := dataFrame_memoryTarget (spaceOf asi) kind a s
    exact ⟨fun p hp => by rw [hp.2] at h; exact h, fun hp => by rw [hp] at h; exact h, fun tt hp => by rw [hp] at h; exact h⟩
  · have hpage := fetchFrame_fetchPage True s
    have htarget := fetchFrame_fetchTarget s
    refine ⟨fun pa hp => ?_, fun tt hp => ?_, fun pa hp => ?_, fun tt hp => ?_⟩
    · rw [hp] at hpage
      obtain ⟨ht, hfsr, hfar, -, hmon⟩ := hpage
      exact ⟨ht, hfsr, hfar, hmon trivial⟩
    · rw [hp] at hpage
      obtain ⟨htt, -, hfar, hmon, hd⟩ := hpage
      exact ⟨htt, hd trivial, hfar, hmon⟩
    · rw [hp] at htarget
      obtain ⟨ht, hfsr, hfar, hpend, hmon⟩ := htarget
      exact ⟨ht, hfsr, hfar, hpend, hmon⟩
    · rw [hp] at htarget
      obtain ⟨htt, ht, hfar, hmon, hd⟩ := htarget
      exact ⟨htt, ht, hfar, hmon, hd⟩

end Sys2Proof.Machine
end

section
/-! Where an access goes: which entry of a TLB matches, what a page permits, the page of each level, and what a breakpoint does
with the access. -/

namespace Sys2Proof.Machine

open Sys2Proof.Spec

/-! ## Pages -/

/-- ACC of a supervisor page. -/
theorem six_le_acc_iff (acc : BitVec 3) : 6 ≤ acc.toNat ↔ acc.toNat ∈ [6, 7] := by
  have := acc.isLt
  simp only [List.mem_cons, List.not_mem_nil, or_false]
  omega

/-- R177, for a mode given as a proposition. -/
theorem permits_iff (acc : BitVec 3) (user : Prop) [Decidable user] (kind : Access) :
    permits acc (decide user) kind = true ↔ Permitted acc user kind := by
  by_cases hu : user <;> cases kind <;> simp only [hu, Permitted, decide_true, decide_false] <;> revert acc <;> decide

/-- FT of a denied access (R177, log 45). -/
theorem denial_eq_of {acc : BitVec 3} {user : Prop} [Decidable user] {ft : BitVec 3} (h : DenialType acc user ft) :
    denial acc (decide user) = ft := by
  obtain ⟨h3, h2⟩ := h
  unfold denial
  simp only [Bool.and_eq_true, decide_eq_true_eq, six_le_acc_iff]
  split_ifs with hd
  · exact (h3 hd).symm
  · exact (h2 hd).symm

/-- The four levels of a table. -/
theorem level_cases (l : BitVec 2) : l = 0 ∨ l = 1 ∨ l = 2 ∨ l = 3 := by
  revert l; decide

/-- R175: the place in the page of each level. -/
theorem inPage_physical (l : BitVec 2) (ppn : BitVec 24) (va : Word) : InPage l.toNat ppn va (physical l ppn va) := by
  rcases level_cases l with rfl | rfl | rfl | rfl <;> simp [InPage, physical]

/-! ## TLB lookup (R181) -/

theorem tagMatches_iff (level : BitVec 2) (vtag : BitVec 20) (va : Word) : tagMatches level vtag va = true ↔
    (level.toNat = 3 → vtag = va.extractLsb' 12 20) ∧
    (level.toNat = 2 → vtag.extractLsb' 6 14 = va.extractLsb' 18 14) ∧
    (level.toNat = 1 → vtag.extractLsb' 12 8 = va.extractLsb' 24 8) := by
  rcases level_cases level with rfl | rfl | rfl | rfl <;> simp [tagMatches]

theorem tlbMatches_iff (ctx va : Word) (e : TlbEntry) : tlbMatches ctx va e = true ↔ Matches ctx va e := by
  simp only [tlbMatches, Matches, Bool.and_eq_true, Bool.or_eq_true, beq_iff_eq, decide_eq_true_eq, six_le_acc_iff,
    tagMatches_iff]
  tauto

/-- The one index that meets a test is all that a search for it finds. -/
theorem filter_finRange_eq_singleton {n : Nat} {p : Fin n → Bool} {k : Fin n} (h : ∀ j, p j = true ↔ j = k) :
    (List.finRange n).filter p = [k] := by
  have hp : p = fun j => decide (j = k) := funext fun j => by rw [Bool.eq_iff_iff, h j, decide_eq_true_eq]
  rw [hp, List.filter_eq, List.count_eq_one_of_mem (List.nodup_finRange n) (List.mem_finRange k), List.replicate_one]

theorem filter_finRange_eq_nil {n : Nat} {p : Fin n → Bool} (h : ∀ j, p j = false) : (List.finRange n).filter p = [] := by
  simp [List.filter_eq_nil_iff, h]

/-- One entry of the D-TLB matches. -/
theorem translateData_of_hit {q : Request} {s : State} {k : Fin 64}
    (h : ∀ j : Fin 64, tlbMatches s.mmu.ctx q.va s.mmu.dtlb[j] = true ↔ j = k) :
    translateData q s =
      if permits s.mmu.dtlb[k].acc q.user q.kind then
        if q.kind = .store ∧ s.mmu.dtlb[k].m = false then setModified k q s
        else .ok { pa := physical s.mmu.dtlb[k].level s.mmu.dtlb[k].ppn q.va, rbo := s.mmu.dtlb[k].rbo } s
      else .mmuFault (denial s.mmu.dtlb[k].acc q.user) s.mmu.dtlb[k].level s := by
  rw [translateData, filter_finRange_eq_singleton h]

/-- No entry of the D-TLB matches. -/
theorem translateData_of_miss {q : Request} {s : State}
    (h : ∀ j : Fin 64, tlbMatches s.mmu.ctx q.va s.mmu.dtlb[j] = false) : translateData q s = translateMiss true q s := by
  rw [translateData, filter_finRange_eq_nil h]

/-- One entry of the I-TLB matches. -/
theorem translateFetch_of_hit {q : Request} {s : State} {k : Fin 16}
    (h : ∀ j : Fin 16, tlbMatches s.mmu.ctx q.va s.mmu.itlb[j] = true ↔ j = k) :
    translateFetch q s =
      if permits s.mmu.itlb[k].acc q.user q.kind then
        .ok { pa := physical s.mmu.itlb[k].level s.mmu.itlb[k].ppn q.va, rbo := false } s
      else .mmuFault (denial s.mmu.itlb[k].acc q.user) s.mmu.itlb[k].level s := by
  rw [translateFetch, filter_finRange_eq_singleton h]

/-- No entry of the I-TLB matches. -/
theorem translateFetch_of_miss {q : Request} {s : State}
    (h : ∀ j : Fin 16, tlbMatches s.mmu.ctx q.va s.mmu.itlb[j] = false) : translateFetch q s = translateMiss false q s := by
  rw [translateFetch, filter_finRange_eq_nil h]

/-! ## Address spaces (R131, R132) -/

/-- The request of a data access in ASI 0x08 to 0x0B. -/
def dataRequest (asi : Asi) (kind : Access) (a : Word) : Request :=
  { va := a, kind := kind, instr := decide (asi.toNat < 10), user := decide (asi.toNat % 2 = 0) }

theorem spaceOf_translated {asi : Asi} (h8 : 8 ≤ asi.toNat) (h11 : asi.toNat ≤ 11) :
    spaceOf asi = .translated (decide (asi.toNat < 10)) (decide (asi.toNat % 2 = 0)) := by
  have : asi.toNat = 8 ∨ asi.toNat = 9 ∨ asi.toNat = 10 ∨ asi.toNat = 11 := by omega
  unfold spaceOf
  rcases this with h | h | h | h <;> simp [h]

theorem toNat_of_bypass {asi : Asi} (h : asi.extractLsb' 4 4 = 2) : asi.toNat / 16 = 2 := by
  have e := congrArg BitVec.toNat h
  have := asi.isLt
  rw [BitVec.extractLsb'_toNat, Nat.shiftRight_eq_div_pow] at e
  simp at e
  omega

theorem spaceOf_bypass {asi : Asi} (h : asi.extractLsb' 4 4 = 2) : spaceOf asi = .bypass (asi.extractLsb' 0 4) := by
  have hn := toNat_of_bypass h
  unfold spaceOf
  split
  · omega
  · omega
  · omega
  · omega
  · exact if_pos h

/-- Outside ASI 0x08 to 0x0B and 0x20 to 0x2F no address names memory. -/
theorem spaceOf_special {asi : Asi} (h : asi.toNat < 8 ∨ 11 < asi.toNat) (hb : asi.extractLsb' 4 4 ≠ 2) :
    spaceOf asi = .special := by
  unfold spaceOf
  split
  · omega
  · omega
  · omega
  · omega
  · exact if_neg hb

/-- An access in ASI 0x08 to 0x0B is a data access through the D-TLB (log 39). -/
theorem memoryTarget_translated {asi : Asi} (h8 : 8 ≤ asi.toNat) (h11 : asi.toNat ≤ 11) (kind : Access) (a : Word)
    (s : State) : memoryTarget (spaceOf asi) kind a s = dataTarget (dataRequest asi kind a) s := by
  rw [spaceOf_translated h8 h11]
  rfl

theorem reachesIn_translated {asi : Asi} (h8 : 8 ≤ asi.toNat) (h11 : asi.toNat ≤ 11) {kind : Access} {a : Word}
    {s u : State} {p : Target} (h : dataTarget (dataRequest asi kind a) s = .ok (some p) u) : ReachesIn asi kind a s p u :=
  ⟨by rw [spaceOf_translated h8 h11]; exact nofun, (memoryTarget_translated h8 h11 kind a s).trans h⟩

/-- With no data breakpoint enabled the access goes to its page. -/
theorem reachesIn_of_dataPage {asi : Asi} (h8 : 8 ≤ asi.toNat) (h11 : asi.toNat ≤ 11) {kind : Access} {a : Word}
    {s u : State} {p : Target} (hn : NoDataBreak s) (h : dataPage (dataRequest asi kind a) s = .ok (some p) u) :
    ReachesIn asi kind a s p u :=
  reachesIn_translated h8 h11 ((dataTarget_of_noDataBreak _ hn).trans h)

/-! ## Pages of data accesses and of fetches -/

theorem dataPage_of_off {s : State} (h : s.mmu.cntl.en = false) (q : Request) :
    dataPage q s = .ok (some { pa := 0#4 ++ q.va, rbo := false }) s := by
  simp [dataPage, h]

theorem dataPage_of_target {q : Request} {s u : State} {p : Target} (he : s.mmu.cntl.en = true)
    (h : translateData q s = .ok p u) : dataPage q s = .ok (some p) u := by
  simp [dataPage, he, h]

/-- A fault of the MMU traps, unless NF suppresses it; in ASI 0x09 NF does not (R57). -/
theorem dataPage_of_fault {q : Request} {s v : State} {ft : BitVec 3} {l : BitVec 2} (he : s.mmu.cntl.en = true)
    (h : translateData q s = .mmuFault ft l v) :
    dataPage q s = if s.mmu.cntl.nf && !(q.instr && !q.user) then .ok none (recordFault true q ft l v)
      else .trap ttDataAccess (recordFault true q ft l v) := by
  simp [dataPage, he, h]

/-- The mode of a fetch is that of the processor (R152). -/
theorem fetchRequest_user (va : Word) (s : State) : (fetchRequest va s).user = decide (s.psr.s = false) :=
  (Bool.decide_eq_false ..).symm

/-- AT of a fetch (R60). -/
theorem accessCode_fetchRequest (va : Word) (s : State) : accessCode (fetchRequest va s) = if s.psr.s then 3 else 2 := by
  simp only [accessCode, fetchRequest]
  cases s.psr.s <;> rfl

theorem fetchPage_of_off {s : State} (h : s.mmu.cntl.en = false) (va : Word) :
    fetchPage va s = .ok (if s.mmu.cntl.bt then bootAddress va else 0#4 ++ va) s := by
  simp [fetchPage, h]

theorem fetchPage_of_target {va : Word} {s u : State} {p : Target} (he : s.mmu.cntl.en = true)
    (h : translateFetch (fetchRequest va s) s = .ok p u) : fetchPage va s = .ok p.pa u := by
  simp [fetchPage, he, h]

theorem fetchPage_of_fault {va : Word} {s v : State} {ft : BitVec 3} {l : BitVec 2} (he : s.mmu.cntl.en = true)
    (h : translateFetch (fetchRequest va s) s = .mmuFault ft l v) :
    fetchPage va s = .trap ttInstructionAccess (recordFault false (fetchRequest va s) ft l v) := by
  simp [fetchPage, he, h]

/-- A data access through an entry that permits it, and that a store does not have to modify first. -/
theorem dataPage_of_hit {q : Request} {s : State} {k : Fin 64} (he : s.mmu.cntl.en = true)
    (h : ∀ j : Fin 64, tlbMatches s.mmu.ctx q.va s.mmu.dtlb[j] = true ↔ j = k)
    (hp : permits s.mmu.dtlb[k].acc q.user q.kind = true) (hm : q.kind = .store → s.mmu.dtlb[k].m = true) :
    dataPage q s =
      .ok (some { pa := physical s.mmu.dtlb[k].level s.mmu.dtlb[k].ppn q.va, rbo := s.mmu.dtlb[k].rbo }) s := by
  refine dataPage_of_target he ?_
  rw [translateData_of_hit h, if_pos hp, if_neg]
  rintro ⟨hk, hf⟩
  exact absurd ((hm hk).symm.trans hf) (by decide)

theorem fetchPage_of_hit {va : Word} {s : State} {k : Fin 16} (he : s.mmu.cntl.en = true)
    (h : ∀ j : Fin 16, tlbMatches s.mmu.ctx va s.mmu.itlb[j] = true ↔ j = k)
    (hp : Permitted s.mmu.itlb[k].acc (s.psr.s = false) .execute) :
    fetchPage va s = .ok (physical s.mmu.itlb[k].level s.mmu.itlb[k].ppn va) s := by
  refine fetchPage_of_target he ((translateFetch_of_hit (q := fetchRequest va s) h).trans (if_pos ?_))
  rw [fetchRequest_user]
  exact (permits_iff _ _ .execute).mpr hp

/-! ## Breakpoints (R725, R784, R810) -/

/-- The store enable for a store, the read enable for any other data access. -/
theorem dataBreak_iff {q : Request} {s : State} : dataBreak (q.kind == .store) q.va s = true ↔
    s.mon.bkc.getLsbD (if q.kind = .store then 0 else 1) = true ∧ Watched s.mon q.va := by
  rw [dataBreak, Bool.and_eq_true, watched_iff]
  by_cases h : q.kind = .store <;> simp [h]

theorem dataBreak_congr {s u : State} (h : u.mon = s.mon) (st : Bool) (a : Word) : dataBreak st a u = dataBreak st a s := by
  simp only [dataBreak, h]

/-- What the data breakpoint does with an access that has its target. -/
theorem dataTarget_of_dataPage {q : Request} {s u : State} {t : Option Target} (h : dataPage q s = .ok t u) :
    dataTarget q s =
      if dataBreak (q.kind == .store) q.va s then
        if s.mon.bkc.getLsbD 2 then .trap ttDataAccess (recordBreak true q u)
        else .ok t { u with mon := { u.mon with
          pendD := s.mon.pendD || (s.mon.action.getLsbD 1 && s.mon.action.extractLsb' 8 4 != 0) } }
      else .ok t u := by
  have hm : u.mon = s.mon := by
    have := translated_dataPage q s
    rw [h] at this
    exact Translated.mon this
  rw [dataTarget, h, andThen_ok, dataBreak_congr hm, dataFaults, requestData, hm]
  rfl

/-- What the code breakpoint does with a fetch that has its target. -/
theorem fetchTarget_of_fetchPage {s u : State} {p : PAddr} (h : fetchPage s.pc s = .ok p u) :
    fetchTarget s =
      if codeBreak s then
        if s.mon.bkc.getLsbD 4 then .trap ttInstructionAccess (recordBreak false (fetchRequest s.pc s) u)
        else .ok p { u with mon := { u.mon with
          pendC := s.mon.pendC || (s.mon.action.getLsbD 3 && s.mon.action.extractLsb' 8 4 != 0) } }
      else .ok p u := by
  have ht : Translated s u := by
    have := translated_fetchPage s.pc s
    rw [h] at this
    exact this
  have hm : u.mon = s.mon := ht.mon
  obtain ⟨hpc, -, hpsr, -⟩ := reached_pcs ht.reached
  have hb : codeBreak u = codeBreak s := by simp only [codeBreak, hm, hpc, hpsr]
  rw [fetchTarget, h, andThen_ok, hb, codeFaults, requestCode, hm]
  rfl

theorem codeBreak_iff {s : State} : codeBreak s = true ↔
    (s.mon.bkc.getLsbD 3 = true ∧ Watched s.mon s.pc) ∧ Config.codeSpaceWatched (s.mon.bkc.getLsbD 6) s.psr.s = true := by
  rw [codeBreak, Bool.and_eq_true, Bool.and_eq_true, watched_iff]
  tauto

/-! ## The obligation -/

/-- A data access in ASI 0x08 to 0x0B, by its page and by the data breakpoint. -/
theorem dataTargets_translated {asi : Asi} (h8 : 8 ≤ asi.toNat) (h11 : asi.toNat ≤ 11) (kind : Access) (a : Word) (s : State) :
    let watched := s.mon.bkc.getLsbD (if kind = .store then 0 else 1) = true ∧ Watched s.mon a
    ∀ (p : Target) (u : State), dataPage (dataRequest asi kind a) s = .ok (some p) u →
      (¬ watched → ReachesIn asi kind a s p u) ∧
      (watched → s.mon.bkc.getLsbD 2 = false → ReachesIn asi kind a s p
        { u with mon := { u.mon with pendD := s.mon.pendD ||
            (s.mon.action.getLsbD 1 && s.mon.action.extractLsb' 8 4 != 0) } }) ∧
      (watched → s.mon.bkc.getLsbD 2 = true → ∃ v, memoryTarget (spaceOf asi) kind a s = .trap 0x09 v ∧
        v.mmu.far = a ∧ v.mmu.fsr.fav = true ∧ MemKept u v) := by
  intro watched p u hp
  have ht := dataTarget_of_dataPage hp
  have hw : dataBreak (kind == .store) a s = true ↔ watched := dataBreak_iff (q := dataRequest asi kind a)
  refine ⟨fun hn => ?_, fun hy hf => ?_, fun hy hf => ?_⟩
  · exact reachesIn_translated h8 h11 (ht.trans (if_neg (fun e => hn (hw.mp e))))
  · exact reachesIn_translated h8 h11 (ht.trans ((if_pos (hw.mpr hy)).trans (if_neg (by rw [hf]; decide))))
  · exact ⟨_, (memoryTarget_translated h8 h11 kind a s).trans (ht.trans ((if_pos (hw.mpr hy)).trans (if_pos hf))),
      rfl, rfl, fun _ => rfl⟩

/-- The fetch at pc, by the code breakpoint. -/
theorem fetchTargets {s u : State} {p : PAddr} (hp : fetchPage s.pc s = .ok p u) :
    let watched := s.mon.bkc.getLsbD 3 = true ∧ Watched s.mon s.pc
    let space := Config.codeSpaceWatched (s.mon.bkc.getLsbD 6) s.psr.s
    (¬ watched → fetchTarget s = .ok p u) ∧
    (watched → s.mon.bkc.getLsbD 4 = false → fetchTarget s = .ok p
      { u with mon := { u.mon with pendC := s.mon.pendC ||
          (space && s.mon.action.getLsbD 3 && s.mon.action.extractLsb' 8 4 != 0) } }) ∧
    (watched → s.mon.bkc.getLsbD 4 = true →
      if space then ∃ v, fetchTarget s = .trap 0x01 v ∧ v.mmu.fsr.fav = false ∧ v.mmu.far = u.mmu.far ∧
        v.mmu.fsr.atype = (if s.psr.s then 3 else 2) ∧ MemKept u v
      else fetchTarget s = .ok p u) := by
  intro watched space
  have ht := fetchTarget_of_fetchPage hp
  have hw : codeBreak s = true ↔ watched ∧ space = true := codeBreak_iff
  have hm : u.mon = s.mon := by
    have := translated_fetchPage s.pc s
    rw [hp] at this
    exact Translated.mon this
  refine ⟨fun hn => ?_, fun hy hf => ?_, fun hy hf => ?_⟩
  · rw [ht, if_neg fun e => hn (hw.mp e).1]
  · cases hs : space
    · rw [ht, if_neg (hw.not.mpr fun e => absurd (hs.symm.trans e.2) (by decide)), ← hm]
      simp
    · rw [ht, if_pos (hw.mpr ⟨hy, hs⟩), if_neg (by rw [hf]; decide), Bool.true_and]
  · cases hs : space
    · rw [if_neg (by decide), ht, if_neg (hw.not.mpr fun e => absurd (hs.symm.trans e.2) (by decide))]
    · rw [if_pos rfl, ht, if_pos (hw.mpr ⟨hy, hs⟩), if_pos hf]
      exact ⟨_, rfl, rfl, rfl, accessCode_fetchRequest s.pc s, fun _ => rfl⟩

/-- Settles O44: lookup, then the four kinds of target and the breakpoint, for data and for the fetch. -/
theorem dataTargets : Obligations.DataTargets := by
  refine ⟨tlbMatches_iff, fun asi kind a s => ⟨fun hb => ?_, fun h8 h11 => ⟨fun hn he => ?_, fun hn he k hk => ?_, ?_⟩⟩,
    fun s => ⟨fun he => fetchPage_of_off he s.pc, fun he k hk => ?_, fun tt u hp => ?_, fun p u hp => fetchTargets hp⟩⟩
  · rw [ReachesIn, spaceOf_bypass hb]
    exact ⟨nofun, rfl⟩
  · exact reachesIn_of_dataPage h8 h11 hn (dataPage_of_off he _)
  · intro e hp hm
    exact ⟨_, reachesIn_of_dataPage h8 h11 hn
      (dataPage_of_hit (q := dataRequest asi kind a) he hk ((permits_iff _ _ kind).mpr hp) hm), inPage_physical ..⟩
  · exact dataTargets_translated h8 h11 kind a s
  · intro e hp
    exact ⟨_, fetchPage_of_hit he hk hp, inPage_physical ..⟩
  · rw [fetchTarget, hp, andThen_trap]

end Sys2Proof.Machine
end

section
/-! The table walk: the entries that a walk reads, level by level (R175, R176), the pointers it caches and the PTE it marks. -/

namespace Sys2Proof.Machine

open Sys2Proof.Spec

/-! ## Entries -/

theorem isPtp_iff (e : Word) : isPtp e = true ↔ Pointer e := by
  simp [isPtp, entryType, Pointer]

theorem isPtp_eq_false {e : Word} (h : ¬ Pointer e) : isPtp e = false :=
  Bool.eq_false_iff.mpr fun g => h ((isPtp_iff e).mp g)

theorem entryType_eq_append (e : Word) : entryType e = BitVec.ofBool (e.getLsbD 1) ++ BitVec.ofBool (e.getLsbD 0) := by
  have bits : ∀ x : BitVec 2, x = BitVec.ofBool (x.getLsbD 1) ++ BitVec.ofBool (x.getLsbD 0) := by decide
  have h0 : (entryType e).getLsbD 0 = e.getLsbD 0 := BitVec.getLsbD_extractLsb' ..
  have h1 : (entryType e).getLsbD 1 = e.getLsbD 1 := BitVec.getLsbD_extractLsb' ..
  rw [← h0, ← h1]
  exact bits (entryType e)

/-- Bit 1 of ET tells a PTE from a pointer and from an invalid entry (R174). -/
theorem isPte_eq_bit (e : Word) : isPte e = e.getLsbD 1 := by
  rw [isPte, entryType_eq_append]
  cases e.getLsbD 1 <;> cases e.getLsbD 0 <;> rfl

/-- Bit 0 of ET is the RBO bit of a PTE (R144). -/
theorem entryType_of_pte {e : Word} (h : e.getLsbD 1 = true) : (entryType e == 3) = e.getLsbD 0 := by
  rw [entryType_eq_append, h]
  cases e.getLsbD 0 <;> rfl

theorem not_pointer_of_pte {e : Word} (h : e.getLsbD 1 = true) : ¬ Pointer e := fun hp => by
  have : entryType e = 1 := hp
  rw [entryType_eq_append, h] at this
  cases he : e.getLsbD 0 <;> rw [he] at this <;> exact absurd this (by decide)

theorem pointer_append_one (p : BitVec 30) : Pointer (p ++ 1#2) := by
  apply BitVec.eq_of_toNat_eq
  rw [BitVec.extractLsb'_toNat, Nat.shiftRight_zero]
  exact append_mod (k := 2) (by decide) p 1#2

/-! ## Going down -/

/-- The levels below level `n`. -/
def levelsBelow (n : Nat) : List (BitVec 2) := (List.range' (n + 1) (3 - n)).map (BitVec.ofNat 2)

theorem levelsBelow_of_lt {n : Nat} (h : n < 3) : levelsBelow n = BitVec.ofNat 2 (n + 1) :: levelsBelow (n + 1) := by
  interval_cases n <;> rfl

theorem levelsBelow_of_le {n : Nat} (h : 3 ≤ n) : levelsBelow n = [] := by
  simp [levelsBelow, Nat.sub_eq_zero_of_le h]

theorem entryAddr_eq_tableAddr {n : Nat} (h : n ≤ 3) (p va : Word) : entryAddr (BitVec.ofNat 2 n) p va = tableAddr n p va := by
  interval_cases n <;> rfl

/-- What a walk from the entry `f` of level `k` has read `j` levels further down. -/
def fetchedBelow (s : State) (va : Word) (k : Nat) (f : Fetched) : Nat → Fetched
  | 0 => f
  | j + 1 =>
    { level := BitVec.ofNat 2 (k + j + 1), addr := belowAddr s va k f.entry (j + 1), entry := below s va k f.entry (j + 1) }

section Below

variable (s : State) (va : Word) (k : Nat) (f : Fetched) (j : Nat)

@[simp] theorem fetchedBelow_entry : (fetchedBelow s va k f j).entry = below s va k f.entry j := by
  cases j <;> rfl

theorem fetchedBelow_level (h : f.level = BitVec.ofNat 2 k) : (fetchedBelow s va k f j).level = BitVec.ofNat 2 (k + j) := by
  cases j
  · exact h
  · rfl

theorem fetchedBelow_addr (h : 0 < j ∨ f.addr = rootAddr s) : (fetchedBelow s va k f j).addr = belowAddr s va k f.entry j := by
  cases j
  · exact h.elim (fun h => absurd h (by decide)) id
  · rfl

/-- While the entries are pointers the walk goes down; it ends at the first that is none, or at level 3. -/
theorem descend_fetchedBelow (h : WalkEnds s va k f.entry j) (i : Nat) (hi : i ≤ j) :
    descend s.mem va (fetchedBelow s va k f i) (levelsBelow (k + i)) =
      (List.range' i (j + 1 - i)).map (fetchedBelow s va k f) := by
  obtain ⟨h3, hptr, hend⟩ := h
  induction hi using Nat.decreasingInduction with
  | self =>
    rw [show j + 1 - j = 1 by omega]
    by_cases hk : k + j < 3
    · rw [levelsBelow_of_lt hk, descend, fetchedBelow_entry, isPtp_eq_false (hend hk)]
      rfl
    · rw [levelsBelow_of_le (by omega)]
      rfl
  | of_succ i hi ih =>
    rw [show j + 1 - i = (j + 1 - (i + 1)) + 1 by omega, List.range'_succ, List.map_cons, ← ih, levelsBelow_of_lt (by omega),
      descend, fetchedBelow_entry, (isPtp_iff _).mpr (hptr i hi), entryAddr_eq_tableAddr (by omega)]
    rfl

end Below

/-! ## The walk for an address -/

/-- What a walk from the entry `e` of level `k` that ends `j` levels further down has found and read. -/
structure WalkFinds (s : State) (va : Word) (k : Nat) (e : Word) (read : Bool) (j : Nat) (w : Walk) : Prop where
  entry : w.last.entry = below s va k e j
  level : w.last.level = BitVec.ofNat 2 (k + j)
  addr : 0 < j ∨ read = true → w.last.addr = belowAddr s va k e j
  root : pointerRead 0 w = if read = true ∧ 0 < j then some e else none
  table : pointerRead 2 w = if k = 0 ∧ j = 3 then some (below s va k e 2) else none

/-- A cached level-2 pointer leads to one more entry, which stands in a table of level 3. -/
theorem walkFinds_of_ptp2 {s : State} {va : Word} {j : Nat} {f : Fetched} (hp : Pointer f.entry)
    (h : WalkEnds s va 2 f.entry j) : WalkFinds s va 2 f.entry false j (walkFrom s.mem va true f [3]) := by
  have hj : j = 1 := by
    obtain ⟨h3, -, hend⟩ := h
    by_contra hne
    obtain rfl : j = 0 := by omega
    exact hend (by decide) hp
  subst hj
  have hd : descend s.mem va f [3] = _ := descend_fetchedBelow s va 2 f 1 h 0 (by decide)
  refine ⟨?_, ?_, fun _ => ?_, ?_, ?_⟩ <;> simp only [walkFrom, hd] <;> rfl

/-- The pointer of level `m` among the entries from level `a` on. -/
theorem find_fetchedBelow {s : State} {va : Word} {f : Fetched} (hl : f.level = 0) {m : Nat} (hm : m < 4) (a n : Nat)
    (ha : a + n ≤ 4) :
    ((List.range' a n).map (fetchedBelow s va 0 f)).find? (fun g => g.level == BitVec.ofNat 2 m && isPtp g.entry) =
      if a ≤ m ∧ m < a + n ∧ isPtp (below s va 0 f.entry m) = true then some (fetchedBelow s va 0 f m) else none := by
  induction n generalizing a with
  | zero => exact (if_neg fun h => by omega).symm
  | succ n ih =>
    have hlevel : (BitVec.ofNat 2 (0 + a) == BitVec.ofNat 2 m) = decide (a = m) := by
      rw [Bool.eq_iff_iff, beq_iff_eq, decide_eq_true_eq, ← BitVec.toNat_inj, BitVec.toNat_ofNat, BitVec.toNat_ofNat]
      omega
    rw [List.range'_succ, List.map_cons, List.find?_cons, fetchedBelow_level s va 0 f a hl, fetchedBelow_entry, hlevel,
      ih (a + 1) (by omega)]
    by_cases he : a = m
    · subst he
      cases isPtp (below s va 0 f.entry a) <;> simp
    · have hrange : a + 1 ≤ m ∧ m < a + 1 + n ↔ a ≤ m ∧ m < a + (n + 1) := by omega
      rw [decide_eq_false he, Bool.false_and]
      exact if_congr (by rw [← and_assoc, hrange, and_assoc]) rfl rfl

/-- The pointers of the levels 0 and 2 that the walk has read: every entry above the last is a pointer. -/
theorem pointerRead_walkFrom {s : State} {va : Word} {j : Nat} {f : Fetched} (hl : f.level = 0)
    (h : WalkEnds s va 0 f.entry j) (read : Bool) {m : Nat} (hm : m < 3) :
    pointerRead (BitVec.ofNat 2 m) (walkFrom s.mem va (!read) f [1, 2, 3]) =
      if (read = true ∨ 0 < m) ∧ m < j then some (below s va 0 f.entry m) else none := by
  have hd : descend s.mem va f [1, 2, 3] = _ := descend_fetchedBelow s va 0 f j h 0 (Nat.zero_le j)
  obtain ⟨h3, hptr, hend⟩ := h
  have hp : m < j + 1 ∧ isPtp (below s va 0 f.entry m) = true ↔ m < j := by
    rw [isPtp_iff]
    constructor
    · rintro ⟨hle, hp⟩
      by_contra hn
      obtain rfl : m = j := by omega
      exact hend (by omega) hp
    · exact fun hlt => ⟨by omega, hptr m hlt⟩
  have hread : (walkFrom s.mem va (!read) f [1, 2, 3]).read =
      (List.range' (if read then 0 else 1) (if read then j + 1 else j)).map (fetchedBelow s va 0 f) := by
    simp only [walkFrom, hd]
    cases read <;> rfl
  rw [pointerRead, hread]
  cases read
  · simp only [Bool.false_eq_true, if_false, false_or, find_fetchedBelow hl (show m < 4 by omega) 1 j (by omega),
      Nat.add_comm 1 j, hp, Option.map_if, fetchedBelow_entry]
    rfl
  · simp only [if_true, true_or, true_and, find_fetchedBelow hl (show m < 4 by omega) 0 (j + 1) (by omega), Nat.zero_add,
      Nat.zero_le, hp, Option.map_if, fetchedBelow_entry]

/-- A walk from a pointer to the tables of level 1, or from the entry of the context table. -/
theorem walkFinds_of_root {s : State} {va : Word} {j : Nat} {f : Fetched} {read : Bool} (hl : f.level = 0)
    (hr : read = true → f.addr = rootAddr s) (h : WalkEnds s va 0 f.entry j) :
    WalkFinds s va 0 f.entry read j (walkFrom s.mem va (!read) f [1, 2, 3]) := by
  have hd : descend s.mem va f [1, 2, 3] = _ := descend_fetchedBelow s va 0 f j h 0 (Nat.zero_le j)
  have hlast : (walkFrom s.mem va (!read) f [1, 2, 3]).last = fetchedBelow s va 0 f j := by
    simp only [walkFrom, hd]
    simp [List.range'_concat, List.getLastD_eq_getLast?]
  refine ⟨?_, ?_, fun ha => ?_, ?_, ?_⟩
  · rw [hlast, fetchedBelow_entry]
  · rw [hlast, fetchedBelow_level s va 0 f j hl]
  · rw [hlast, fetchedBelow_addr s va 0 f j (ha.imp_right hr)]
  · exact (pointerRead_walkFrom hl h read (m := 0) (by decide)).trans (if_congr (by simp) rfl rfl)
  · have h3 := h.1
    exact (pointerRead_walkFrom hl h read (m := 2) (by decide)).trans (if_congr (by omega) rfl rfl)

theorem rootEntry_eq (s : State) : rootEntry s = { level := 0, addr := rootAddr s, entry := memWord s.mem (rootAddr s) } := by
  have h : s.mmu.ctx.setWidth 36 <<< 2 = s.mmu.ctx.setWidth 36 * 4 := by
    rw [BitVec.shiftLeft_eq_mul_twoPow]; rfl
  simp only [rootEntry, rootAddr, h]

theorem ptp2Candidates_eq (data : Bool) (va : Word) (s : State) :
    ptp2Candidates data va s = (cachedPtp2 data s).filter (fun p => p.valid == 1 && p.tag == va.extractLsb' 18 14) := rfl

/-- The walk of an address from where it starts to where it ends (R175, R176). -/
theorem walk_finds {data : Bool} {va : Word} {s : State} {k : Nat} {e : Word} {read : Bool} {j : Nat}
    (hs : WalkStarts data va s k e read) (he : WalkEnds s va k e j) : WalkFinds s va k e read j (walk data va s) := by
  unfold walk
  rw [ptp2Candidates_eq]
  rcases hs with ⟨rfl, rfl, p, hp, rfl⟩ | ⟨rfl, hn, ⟨rfl, hv, rfl⟩ | ⟨rfl, hv, rfl⟩⟩
  · rw [hp]
    have hi : freeIndex 0 s = 0 := Nat.mod_one _
    simp only [List.length_nil, hi]
    exact walkFinds_of_ptp2 (f := ptp2Entry p) (pointer_append_one (p.ptr ++ 0#2)) he
  all_goals
    have hnone : (cachedPtp2 data s).filter (fun p => p.valid == 1 && p.tag == va.extractLsb' 18 14) = [] := by
      simpa [List.filter_eq_nil_iff, Serves] using hn
    simp only [hnone, hv, if_true, if_false]
  · exact walkFinds_of_root (f := { level := 0, addr := 0, entry := s.mmu.ptp0.ptr ++ 0#4 ++ 1#2 }) rfl nofun he
  · rw [rootEntry_eq]
    exact walkFinds_of_root (f := { level := 0, addr := rootAddr s, entry := memWord s.mem (rootAddr s) }) (read := true) rfl
      (fun _ => rfl) he

end Sys2Proof.Machine
end

section
/-! A miss and a store that sets M: the pointers cached, the PTE marked in memory, the entry filled (R70, R176, R179, R180). -/

namespace Sys2Proof.Machine

open Sys2Proof.Spec

/-! ## A word of memory after its write -/

/-- The four bytes of a word spell it. -/
theorem joinBytes_splitBytes_word (w : Word) : (joinBytes (splitBytes (w.setWidth 64) 4)).setWidth 32 = w := by
  apply BitVec.eq_of_getLsbD_eq
  intro i hi
  interval_cases i <;> simp [joinBytes, splitBytes]

/-- A word of canonical memory reads as it has been written. -/
theorem memWord_storeBytes {a : PAddr} (ha : a.toNat % 4 = 0) (w : Word) {s : State} (hw : Memory.wf s.mem = true) :
    memWord (storeBytes a (splitBytes (w.setWidth 64) 4) s).mem a = w := by
  have hl : (splitBytes (w.setWidth 64) 4).length = 4 := splitBytes_length _ _
  have h := readBytes_writeBytes_same (a := a.toNat) (splitBytes (w.setWidth 64) 4) hw (by have := a.isLt; omega)
  rw [hl] at h
  rw [memWord, storeBytes_mem, h, joinBytes_splitBytes_word]

/-- The PTE stands in memory as it has been written back. -/
theorem memWord_writePte {a : PAddr} (ha : a.toNat % 4 = 0) {old new : Word} {s : State} (hw : Memory.wf s.mem = true)
    (ho : memWord s.mem a = old) : memWord (writePte a old new s).mem a = new := by
  unfold writePte
  split_ifs with h
  · exact ho.trans h
  · exact memWord_storeBytes ha new hw

@[simp] theorem writePte_mmu (a : PAddr) (old new : Word) (s : State) : (writePte a old new s).mmu = s.mmu := by
  unfold writePte; split_ifs <;> rfl

/-! ## The pointer caches -/

/-- R70: the first invalid entry is replaced; with none invalid it is one of the four. -/
theorem ptp2Victim_of_first {s : State} {w : Fin 4} (h : FirstInvalid s w) : ptp2Victim s = w := by
  obtain ⟨hw, hbefore⟩ := h
  have hf : (List.finRange 4).find? (fun i => s.mmu.dptp2[i].valid != 1) = some w := by
    rw [List.find?_eq_some_iff_getElem]
    refine ⟨by simpa using hw, w, by simp, by simp, fun i hi => ?_⟩
    have := hbefore ⟨i, by omega⟩ hi
    simpa using this
  rw [ptp2Victim, hf, Option.getD_some]

section CachePointers

variable {data : Bool} {va : Word} {w : Walk} {s : State}

theorem cachePointers_ptp0 : (cachePointers data va w s).mmu.ptp0 =
    ((pointerRead 0 w).map fun e => { ptr := e.extractLsb' 6 26, valid := 1 : Ptp0 }).getD s.mmu.ptp0 := by
  unfold cachePointers
  cases pointerRead 0 w <;> cases pointerRead 2 w <;> cases data <;> rfl

/-- Without a pointer of level 2 the level-2 pointer caches stay. -/
theorem cachePointers_ptp2_none (h : pointerRead 2 w = none) :
    (cachePointers data va w s).mmu.iptp2 = s.mmu.iptp2 ∧ (cachePointers data va w s).mmu.dptp2 = s.mmu.dptp2 := by
  simp only [cachePointers, h, and_self]

/-- The pointer of level 2 goes to the cache of the side. -/
theorem cachePointers_ptp2_some {e : Word} (h : pointerRead 2 w = some e) :
    (cachePointers data va w s).mmu.iptp2 =
      (if data then s.mmu.iptp2 else { ptr := e.extractLsb' 4 28, valid := 1, tag := va.extractLsb' 18 14 }) ∧
    (cachePointers data va w s).mmu.dptp2 =
      if data then s.mmu.dptp2.set (ptp2Victim s) { ptr := e.extractLsb' 4 28, valid := 1, tag := va.extractLsb' 18 14 }
      else s.mmu.dptp2 := by
  simp only [cachePointers, h]
  cases data <;> exact ⟨rfl, rfl⟩

end CachePointers

/-- Where the pointers go that a walk has read (R176, log 44). -/
theorem pointersCached_cachePointers {data : Bool} {va : Word} {s : State} {k : Nat} {e : Word} {read : Bool} {j : Nat}
    {w : Walk} (h : WalkFinds s va k e read j w) : PointersCached data va s (cachePointers data va w (drawn s)) k e read j := by
  refine ⟨?_, fun hk => ?_, fun hk => ?_⟩
  · rw [cachePointers_ptp0, h.root]
    split_ifs <;> rfl
  · obtain ⟨hi, hd⟩ := cachePointers_ptp2_some (data := data) (va := va) (s := drawn s) (h.table.trans (if_pos hk))
    cases data
    · exact ⟨hi, hd⟩
    · refine ⟨hi, fun i hf => ?_, fun _ => ⟨_, hd⟩⟩
      obtain rfl : ptp2Victim (drawn s) = i := ptp2Victim_of_first hf
      exact hd
  · exact cachePointers_ptp2_none (h.table.trans (if_neg hk))

/-- The pointer caches alone say which pointers are cached. -/
theorem pointersCached_congr {data : Bool} {va : Word} {s u v : State} {k : Nat} {e : Word} {read : Bool} {j : Nat}
    (h : PointersCached data va s u k e read j) (h0 : v.mmu.ptp0 = u.mmu.ptp0) (hi : v.mmu.iptp2 = u.mmu.iptp2)
    (hd : v.mmu.dptp2 = u.mmu.dptp2) : PointersCached data va s v k e read j := by
  unfold PointersCached at h ⊢
  rwa [h0, hi, hd]

/-! ## Filling a TLB (R67, R180) -/

theorem mem_replaceable {n : Nat} {tlb : Vector TlbEntry n} {i : Fin n} : i ∈ replaceable tlb ↔ tlb[i].lock = false := by
  simp [replaceable]

/-- Where an entry is unlocked there is one to replace, and it is unlocked (D15). -/
theorem exists_victim {n : Nat} {tlb : Vector TlbEntry n} (h : ∃ i : Fin n, tlb[i].lock = false) (s : State) :
    ∃ v, tlb[v].lock = false ∧ victim tlb s = some v := by
  obtain ⟨i, hi⟩ := h
  have hm := mem_replaceable.mpr hi
  have hall : ∀ v ∈ replaceable tlb, tlb[v].lock = false := fun v => mem_replaceable.mp
  unfold victim
  match replaceable tlb, hm, hall with
  | [v], _, hall => exact ⟨v, hall v (by simp), rfl⟩
  | v :: w :: rest, _, hall =>
    refine ⟨_, hall _ ?_, rfl⟩
    have hlt : freeIndex (rest.length + 1) s < (v :: w :: rest).length := Nat.mod_lt _ (Nat.succ_pos _)
    rw [List.getD_eq_getElem _ _ hlt]
    exact List.getElem_mem hlt

theorem noVictim_data {s : State} (h : ∃ i : Fin 64, s.mmu.dtlb[i].lock = false) : noVictim true s = false := by
  obtain ⟨i, hi⟩ := h
  exact List.isEmpty_eq_false_iff_exists_mem.mpr ⟨i, mem_replaceable.mpr hi⟩

theorem noVictim_instr {s : State} (h : ∃ i : Fin 16, s.mmu.itlb[i].lock = false) : noVictim false s = false := by
  obtain ⟨i, hi⟩ := h
  exact List.isEmpty_eq_false_iff_exists_mem.mpr ⟨i, mem_replaceable.mpr hi⟩

/-- The D-TLB takes the entry in an unlocked place. -/
theorem exists_fillTlb_data {s : State} (h : ∃ i : Fin 64, s.mmu.dtlb[i].lock = false) (va : Word) (l : BitVec 2)
    (pte : Word) : ∃ v : Fin 64, s.mmu.dtlb[v].lock = false ∧ fillTlb true va l pte s =
      some (drawn { s with mmu := { s.mmu with dtlb := s.mmu.dtlb.set v (entryOfPte true va l pte s) } }) := by
  obtain ⟨v, hv, e⟩ := exists_victim h s
  exact ⟨v, hv, by simp [fillTlb, e]⟩

/-- The I-TLB takes the entry in an unlocked place. -/
theorem exists_fillTlb_instr {s : State} (h : ∃ i : Fin 16, s.mmu.itlb[i].lock = false) (va : Word) (l : BitVec 2)
    (pte : Word) : ∃ v : Fin 16, s.mmu.itlb[v].lock = false ∧ fillTlb false va l pte s =
      some (drawn { s with mmu := { s.mmu with itlb := s.mmu.itlb.set v (entryOfPte false va l pte s) } }) := by
  obtain ⟨v, hv, e⟩ := exists_victim h s
  exact ⟨v, hv, by simp [fillTlb, e]⟩

/-! ## The state after a walk to a PTE -/

/-- The pointers of the walk for `va` have been cached, and its PTE has R, and M for a store (R176, R179). -/
def marked (data : Bool) (kind : Access) (va : Word) (s : State) : State :=
  let w := walk data va s
  writePte w.last.addr w.last.entry (touched kind w.last.entry) (cachePointers data va w (drawn s))

/-- A PTE stays one when R and M are set in it. -/
theorem touched_isPte (kind : Access) (pte : Word) : (touched kind pte).getLsbD 1 = pte.getLsbD 1 := by
  unfold touched
  split_ifs <;> simp

section Marked

variable {data : Bool} {va : Word} {s : State} {k : Nat} {e : Word} {read : Bool} {j : Nat}

theorem marked_mmu (data : Bool) (kind : Access) (va : Word) (s : State) :
    (marked data kind va s).mmu = (cachePointers data va (walk data va s) (drawn s)).mmu :=
  writePte_mmu ..

theorem marked_tlbs (data : Bool) (kind : Access) (va : Word) (s : State) :
    (marked data kind va s).mmu.dtlb = s.mmu.dtlb ∧ (marked data kind va s).mmu.itlb = s.mmu.itlb ∧
      (marked data kind va s).mmu.ctx = s.mmu.ctx := by
  rw [marked_mmu]
  have h := (oneSide_cachePointers data va (walk data va s) (drawn s)).2
  exact ⟨h.dtlb, h.itlb, (translated_cachePointers data va (walk data va s) (drawn s)).ctx⟩

theorem marked_pointers (kind : Access) (hs : WalkStarts data va s k e read) (he : WalkEnds s va k e j) :
    PointersCached data va s (marked data kind va s) k e read j := by
  have hm := marked_mmu data kind va s
  exact pointersCached_congr (pointersCached_cachePointers (walk_finds hs he)) (by rw [hm]) (by rw [hm]) (by rw [hm])

/-- A PTE stands where the walk says: a walk that ends where it starts has read the entry of the context table. -/
theorem pte_read (hs : WalkStarts data va s k e read) (he : WalkEnds s va k e j) (hp : (below s va k e j).getLsbD 1 = true) :
    (0 < j ∨ read = true) ∧ memWord s.mem (belowAddr s va k e j) = below s va k e j := by
  cases j with
  | succ j => exact ⟨.inl (Nat.succ_pos j), rfl⟩
  | zero =>
    have hn := not_pointer_of_pte hp
    rcases hs with ⟨rfl, rfl, p, -, rfl⟩ | ⟨rfl, -, ⟨rfl, -, rfl⟩ | ⟨rfl, -, rfl⟩⟩
    · exact absurd (pointer_append_one (p.ptr ++ 0#2)) hn
    · exact absurd (pointer_append_one (s.mmu.ptp0.ptr ++ 0#4)) hn
    · exact ⟨.inr rfl, rfl⟩

/-- The PTE in memory after the walk. -/
theorem marked_pte (kind : Access) (hw : Memory.wf s.mem = true) (hs : WalkStarts data va s k e read)
    (he : WalkEnds s va k e j) (hp : (below s va k e j).getLsbD 1 = true) :
    memWord (marked data kind va s).mem (belowAddr s va k e j) = touched kind (below s va k e j) := by
  have hf := walk_finds hs he
  obtain ⟨hj, hr⟩ := pte_read hs he hp
  have hm : (cachePointers data va (walk data va s) (drawn s)).mem = s.mem :=
    (oneSide_cachePointers data va (walk data va s) (drawn s)).2.mem
  have ha := walk_aligned data va s
  rw [hf.addr hj] at ha
  unfold marked
  simp only [hf.addr hj, hf.entry]
  exact memWord_writePte ha (by rwa [hm]) (by rwa [hm])

theorem walkFault_of_pte (hs : WalkStarts data va s k e read) (he : WalkEnds s va k e j)
    (hp : (below s va k e j).getLsbD 1 = true) : walkFault (walk data va s) = none := by
  rw [walkFault, (walk_finds hs he).entry, isPte_eq_bit, hp, if_pos rfl]

/-- The entry that a marked PTE makes (R180). -/
theorem entryOfPte_touched {u : State} {ctx : Word} (hx : u.mmu.ctx = ctx) (kind : Access) {pte : Word}
    (hp : pte.getLsbD 1 = true) (data : Bool) (va : Word) (l : Nat) :
    entryOfPte data va (BitVec.ofNat 2 l) (touched kind pte) u = entryFrom data va ctx l (touched kind pte) := by
  have h1 : (touched kind pte).getLsbD 1 = true := (touched_isPte kind pte).trans hp
  simp only [entryOfPte, entryFrom, pteAcc, entryType_of_pte h1, hx]

/-- A miss whose walk ends at a PTE that permits the access (R175 to R180). -/
theorem translateMiss_of_pte {q : Request} {u : State} (hv : noVictim data s = false)
    (hs : WalkStarts data q.va s k e read) (he : WalkEnds s q.va k e j) (hp : (below s q.va k e j).getLsbD 1 = true)
    (ha : permits ((below s q.va k e j).extractLsb' 2 3) q.user q.kind = true)
    (hf : fillTlb data q.va (BitVec.ofNat 2 (k + j)) (touched q.kind (below s q.va k e j)) (marked data q.kind q.va s) =
      some u) :
    translateMiss data q s =
      .ok { pa := physical (BitVec.ofNat 2 (k + j)) ((below s q.va k e j).extractLsb' 8 24) q.va,
            rbo := data && (below s q.va k e j).getLsbD 0 } u := by
  have hw := walk_finds hs he
  have hn := walkFault_of_pte hs he hp
  rw [← hw.entry] at hp ha hf ⊢
  rw [← hw.level] at hf ⊢
  dsimp only [marked] at hf
  simp only [translateMiss, hv, Bool.false_eq_true, if_false, hn, pteAcc, ha, if_true, hf, entryType_of_pte hp]

end Marked

/-! ## The obligation -/

/-- A page of a PTE found `j` levels below level `k`. -/
theorem inPage_below {k j : Nat} (h : k + j ≤ 3) (ppn : BitVec 24) (va : Word) :
    InPage (k + j) ppn va (physical (BitVec.ofNat 2 (k + j)) ppn va) := by
  have hp := inPage_physical (BitVec.ofNat 2 (k + j)) ppn va
  rwa [BitVec.toNat_ofNat, Nat.mod_eq_of_lt (by omega)] at hp

/-- A data access that misses the D-TLB. -/
theorem dataPage_of_walk {q : Request} {s : State} {k : Nat} {e : Word} {read : Bool} {j : Nat}
    (hen : s.mmu.cntl.en = true) (hmem : Memory.wf s.mem = true) (hs : WalkStarts true q.va s k e read)
    (he : WalkEnds s q.va k e j) (hp : (below s q.va k e j).getLsbD 1 = true)
    (hmiss : ∀ i : Fin 64, tlbMatches s.mmu.ctx q.va s.mmu.dtlb[i] = false) (hv : ∃ i : Fin 64, s.mmu.dtlb[i].lock = false)
    (ha : permits ((below s q.va k e j).extractLsb' 2 3) q.user q.kind = true) :
    ∃ u p, dataPage q s = .ok (some { pa := p, rbo := (below s q.va k e j).getLsbD 0 }) u ∧
      InPage (k + j) ((below s q.va k e j).extractLsb' 8 24) q.va p ∧
      memWord u.mem (belowAddr s q.va k e j) = touched q.kind (below s q.va k e j) ∧
      PointersCached true q.va s u k e read j ∧
      ∃ v : Fin 64, s.mmu.dtlb[v].lock = false ∧ u.mmu.dtlb =
        s.mmu.dtlb.set v (entryFrom true q.va s.mmu.ctx (k + j) (touched q.kind (below s q.va k e j))) := by
  obtain ⟨hd, -, hx⟩ := marked_tlbs true q.kind q.va s
  obtain ⟨v, hl, hf⟩ := exists_fillTlb_data (s := marked true q.kind q.va s) (hd ▸ hv) q.va (BitVec.ofNat 2 (k + j))
    (touched q.kind (below s q.va k e j))
  have ht := translateMiss_of_pte (noVictim_data hv) hs he hp ha hf
  refine ⟨_, _, dataPage_of_target hen ((translateData_of_miss hmiss).trans ht), inPage_below he.1 .., ?_, ?_, v, hd ▸ hl, ?_⟩
  · exact marked_pte q.kind hmem hs he hp
  · exact pointersCached_congr (marked_pointers q.kind hs he) rfl rfl rfl
  · rw [entryOfPte_touched hx q.kind hp, ← hd]
    rfl

/-- A store that hits an entry of the D-TLB with M = 0. -/
theorem dataPage_of_setModified {q : Request} {s : State} {k : Nat} {e : Word} {read : Bool} {j : Nat} {h : Fin 64}
    (hen : s.mmu.cntl.en = true) (hmem : Memory.wf s.mem = true) (hs : WalkStarts true q.va s k e read)
    (he : WalkEnds s q.va k e j) (hp : (below s q.va k e j).getLsbD 1 = true) (hk : q.kind = .store)
    (hit : ∀ i : Fin 64, tlbMatches s.mmu.ctx q.va s.mmu.dtlb[i] = true ↔ i = h) (hm : s.mmu.dtlb[h].m = false)
    (ha : permits s.mmu.dtlb[h].acc q.user q.kind = true) :
    ∃ u p, dataPage q s = .ok (some { pa := p, rbo := s.mmu.dtlb[h].rbo }) u ∧
      InPage s.mmu.dtlb[h].level.toNat s.mmu.dtlb[h].ppn q.va p ∧
      memWord u.mem (belowAddr s q.va k e j) = touched .store (below s q.va k e j) ∧
      PointersCached true q.va s u k e read j ∧ u.mmu.dtlb = s.mmu.dtlb.set h { s.mmu.dtlb[h] with m := true } := by
  have ht : setModified h q s =
      .ok { pa := physical s.mmu.dtlb[h].level s.mmu.dtlb[h].ppn q.va, rbo := s.mmu.dtlb[h].rbo }
        { marked true .store q.va s with
          mmu := { (marked true .store q.va s).mmu with
            dtlb := (marked true .store q.va s).mmu.dtlb.set h { s.mmu.dtlb[h] with m := true } } } := by
    simp only [setModified, walkFault_of_pte hs he hp]
    rfl
  have hx := (translateData_of_hit hit).trans ((if_pos ha).trans (if_pos ⟨hk, hm⟩))
  refine ⟨_, _, dataPage_of_target hen (hx.trans ht), inPage_physical .., ?_, ?_, ?_⟩
  · exact marked_pte .store hmem hs he hp
  · exact pointersCached_congr (marked_pointers .store hs he) rfl rfl rfl
  · rw [← (marked_tlbs true .store q.va s).1]

/-- A fetch that misses the I-TLB. -/
theorem fetchPage_of_walk {va : Word} {s : State} {k : Nat} {e : Word} {read : Bool} {j : Nat}
    (hen : s.mmu.cntl.en = true) (hmem : Memory.wf s.mem = true) (hs : WalkStarts false va s k e read)
    (he : WalkEnds s va k e j) (hp : (below s va k e j).getLsbD 1 = true)
    (hmiss : ∀ i : Fin 16, tlbMatches s.mmu.ctx va s.mmu.itlb[i] = false) (hv : ∃ i : Fin 16, s.mmu.itlb[i].lock = false)
    (ha : Permitted ((below s va k e j).extractLsb' 2 3) (s.psr.s = false) .execute) :
    ∃ u p, fetchPage va s = .ok p u ∧ InPage (k + j) ((below s va k e j).extractLsb' 8 24) va p ∧
      memWord u.mem (belowAddr s va k e j) = touched .execute (below s va k e j) ∧
      PointersCached false va s u k e read j ∧ u.mmu.dtlb = s.mmu.dtlb ∧
      ∃ v : Fin 16, s.mmu.itlb[v].lock = false ∧ u.mmu.itlb =
        s.mmu.itlb.set v (entryFrom false va s.mmu.ctx (k + j) (touched .execute (below s va k e j))) := by
  obtain ⟨hd, hi, hx⟩ := marked_tlbs false .execute va s
  obtain ⟨v, hl, hf⟩ := exists_fillTlb_instr (s := marked false .execute va s) (hi ▸ hv) va (BitVec.ofNat 2 (k + j))
    (touched .execute (below s va k e j))
  have ha' : permits ((below s va k e j).extractLsb' 2 3) (fetchRequest va s).user .execute = true := by
    rw [fetchRequest_user]
    exact (permits_iff _ _ .execute).mpr ha
  have ht := translateMiss_of_pte (q := fetchRequest va s) (noVictim_instr hv) hs he hp ha' hf
  refine ⟨_, _, fetchPage_of_target hen ((translateFetch_of_miss (q := fetchRequest va s) hmiss).trans ht),
    inPage_below he.1 .., ?_, ?_, hd, v, hi ▸ hl, ?_⟩
  · exact marked_pte .execute hmem hs he hp
  · exact pointersCached_congr (marked_pointers .execute hs he) rfl rfl rfl
  · rw [entryOfPte_touched hx .execute hp, ← hi]
    rfl

/-- Settles O47: misses of data accesses and of fetches, and stores that set M. -/
theorem tableWalk : Obligations.TableWalk := by
  intro asi kind a s hen hmem k j e read pte at_ used he hp
  refine ⟨fun h8 h11 hn hs => ⟨fun hmiss hv ha => ?_, fun hk h hit => ?_⟩, fun hs hk hmiss hv ha => ?_⟩
  · obtain ⟨u, p, hpage, hrest⟩ := dataPage_of_walk (q := dataRequest asi kind a) hen hmem hs he hp hmiss hv
      ((permits_iff _ _ kind).mpr ha)
    exact ⟨u, p, reachesIn_of_dataPage h8 h11 hn hpage, hrest⟩
  · intro entry hm ha
    subst hk
    obtain ⟨u, p, hpage, hrest⟩ := dataPage_of_setModified (q := dataRequest asi .store a) hen hmem hs he hp rfl hit hm
      ((permits_iff _ _ .store).mpr ha)
    exact ⟨u, p, reachesIn_of_dataPage h8 h11 hn hpage, hrest⟩
  · subst hk
    exact fetchPage_of_walk hen hmem hs he hp hmiss hv ha

end Sys2Proof.Machine
end

section
/-! Accesses that a page denies or whose walk ends without a PTE: what MFSR and MFAR record, the trap, and with MCNTL.NF = 1
the completion (R57, R178, R371, R790). -/

namespace Sys2Proof.Machine

open Sys2Proof.Spec

/-! ## Which fault a translation ends in -/

/-- A data access that the one matching entry does not permit. -/
theorem translateData_of_denied {q : Request} {s : State} {k : Fin 64} {user : Prop} [Decidable user] {ft : BitVec 3}
    (hu : q.user = decide user) (h : ∀ j : Fin 64, tlbMatches s.mmu.ctx q.va s.mmu.dtlb[j] = true ↔ j = k)
    (hn : ¬ Permitted s.mmu.dtlb[k].acc user q.kind) (hd : DenialType s.mmu.dtlb[k].acc user ft) :
    translateData q s = .mmuFault ft s.mmu.dtlb[k].level s := by
  rw [translateData_of_hit h, hu, if_neg ((permits_iff ..).not.mpr hn), denial_eq_of hd]

/-- A fetch that the one matching entry does not permit. -/
theorem translateFetch_of_denied {q : Request} {s : State} {k : Fin 16} {user : Prop} [Decidable user] {ft : BitVec 3}
    (hu : q.user = decide user) (h : ∀ j : Fin 16, tlbMatches s.mmu.ctx q.va s.mmu.itlb[j] = true ↔ j = k)
    (hn : ¬ Permitted s.mmu.itlb[k].acc user q.kind) (hd : DenialType s.mmu.itlb[k].acc user ft) :
    translateFetch q s = .mmuFault ft s.mmu.itlb[k].level s := by
  rw [translateFetch_of_hit h, hu, if_neg ((permits_iff ..).not.mpr hn), denial_eq_of hd]

/-- A miss whose walk ends at an invalid entry, at a pointer of level 3, or at a PTE that does not permit the access. -/
theorem translateMiss_of_fails {data : Bool} {q : Request} {s : State} {k : Nat} {e : Word} {read : Bool} {j : Nat}
    {user : Prop} [Decidable user] {ft : BitVec 3} (hu : q.user = decide user) (hv : noVictim data s = false)
    (hs : WalkStarts data q.va s k e read) (he : WalkEnds s q.va k e j)
    (hf : WalkFails (k + j) (below s q.va k e j) user q.kind ft) :
    translateMiss data q s =
      .mmuFault ft (BitVec.ofNat 2 (k + j)) (cachePointers data q.va (walk data q.va s) (drawn s)) := by
  have hw := walk_finds hs he
  rw [← hw.level]
  rw [← hw.entry] at hf
  simp only [translateMiss, hv, Bool.false_eq_true, if_false]
  rcases hf with ⟨h0, rfl⟩ | ⟨-, hp, rfl⟩ | ⟨h1, hn, hd⟩
  · have hfault : walkFault (walk data q.va s) = some 1 := by
      simp [walkFault, isPte, isPtp, entryType, h0]
    rw [hfault]
  · have hfault : walkFault (walk data q.va s) = some 4 := by
      have hp : (walk data q.va s).last.entry.extractLsb' 0 2 = 1 := hp
      simp [walkFault, isPte, isPtp, entryType, hp]
    rw [hfault]
  · have hfault : walkFault (walk data q.va s) = none := by rw [walkFault, isPte_eq_bit, h1, if_pos rfl]
    have hn : ¬ Permitted (pteAcc (walk data q.va s).last.entry) user q.kind := hn
    have hd : DenialType (pteAcc (walk data q.va s).last.entry) user ft := hd
    rw [hfault]
    simp only
    rw [hu, if_neg ((permits_iff ..).not.mpr hn), denial_eq_of hd]

/-! ## What a fault records -/

/-- `u` is `s` after a fault of the request: what MFSR and MFAR hold, and what is as it was (R178). -/
structure FaultNoted (data : Bool) (q : Request) (ft : BitVec 3) (l : Nat) (s u : State) : Prop where
  kept : FaultKept data s u
  ow : u.mmu.fsr.ow = decide (s.mmu.fsr.ftype ≠ 0)
  ftype : u.mmu.fsr.ftype = ft
  level : u.mmu.fsr.level.toNat = l
  fav : u.mmu.fsr.fav = data
  atype : u.mmu.fsr.atype = accessCode q
  far : u.mmu.far = if data then q.va else s.mmu.far

theorem faultNoted_recordFault {data : Bool} {s v : State} (t : Translated s v) (o : OneSide data s v) (k : Unwritten s v)
    (q : Request) (ft : BitVec 3) (l : BitVec 2) : FaultNoted data q ft l.toNat s (recordFault data q ft l v) where
  kept := faultKept_recordFault t o k q ft l
  ow := by
    show (v.mmu.fsr.ftype != 0) = _
    rw [o.fsr, bne, Bool.eq_iff_iff]
    simp
  ftype := rfl
  level := rfl
  fav := rfl
  atype := rfl
  far := by
    show (if data then q.va else v.mmu.far) = _
    rw [o.far]

/-- A data access that faults: the fault is noted, and NF decides whether it traps. -/
theorem dataPage_notes_fault {q : Request} {s v : State} {ft : BitVec 3} {l : BitVec 2} (he : s.mmu.cntl.en = true)
    (h : translateData q s = .mmuFault ft l v) :
    ∃ u, FaultNoted true q ft l.toNat s u ∧
      dataPage q s = if s.mmu.cntl.nf && !(q.instr && !q.user) then .ok none u else .trap ttDataAccess u := by
  have ht := translated_data q s
  have ho := ends_data q s
  rw [h] at ht ho
  exact ⟨_, faultNoted_recordFault ht ho.1 ho.2 q ft l, dataPage_of_fault he h⟩

/-- A fetch that faults traps, whatever NF is. -/
theorem fetchTarget_notes_fault {s v : State} {ft : BitVec 3} {l : BitVec 2} (he : s.mmu.cntl.en = true)
    (h : translateFetch (fetchRequest s.pc s) s = .mmuFault ft l v) :
    ∃ u, FaultNoted false (fetchRequest s.pc s) ft l.toNat s u ∧ fetchTarget s = .trap ttInstructionAccess u := by
  have ht := translated_fetch (fetchRequest s.pc s) s
  have ho := ends_fetch (fetchRequest s.pc s) s
  rw [h] at ht ho
  refine ⟨_, faultNoted_recordFault ht ho.1 ho.2 (fetchRequest s.pc s) ft l, ?_⟩
  rw [fetchTarget, fetchPage_of_fault he h, andThen_trap]

/-- MFSR after a fault: OW, FT and the level. -/
def FaultFields (s : State) (ft : BitVec 3) (l : Nat) (m : Mmu) : Prop :=
  m.fsr.ow = decide (s.mmu.fsr.ftype ≠ 0) ∧ m.fsr.ftype = ft ∧ m.fsr.level.toNat = l

/-- The MMU after the fault of a data access. -/
def DataFaultLeaves (asi : Asi) (kind : Access) (a : Word) (ft : BitVec 3) (l : Nat) (s : State) (m : Mmu) : Prop :=
  FaultFields s ft l m ∧ m.far = a ∧ m.fsr.fav = true ∧
    m.fsr.atype.toNat = (if kind = .store then 4 else 0) + (if asi.toNat < 10 then 2 else 0) +
      (if asi.toNat % 2 = 0 then 0 else 1) ∧
    m = { s.mmu with fsr := m.fsr, far := a, ptp0 := m.ptp0, dptp2 := m.dptp2 }

/-- The MMU after the fault of a fetch. -/
def FetchFaultLeaves (ft : BitVec 3) (l : Nat) (s : State) (m : Mmu) : Prop :=
  FaultFields s ft l m ∧ m.fsr.fav = false ∧ m.fsr.atype = (if s.psr.s then 3 else 2) ∧
    m = { s.mmu with fsr := m.fsr, ptp0 := m.ptp0, iptp2 := m.iptp2 }

/-- AT of a data access in ASI 0x08 to 0x0B, as a number (R60). -/
theorem accessCode_dataRequest (asi : Asi) (kind : Access) (a : Word) : (accessCode (dataRequest asi kind a)).toNat =
    (if kind = .store then 4 else 0) + (if asi.toNat < 10 then 2 else 0) + (if asi.toNat % 2 = 0 then 0 else 1) := by
  unfold accessCode dataRequest
  by_cases hi : asi.toNat < 10 <;> by_cases hu : asi.toNat % 2 = 0 <;> cases kind <;> simp only [hi, hu] <;> decide

theorem FaultNoted.dataLeaves {asi : Asi} {kind : Access} {a : Word} {ft : BitVec 3} {l : Nat} {s u : State}
    (h : FaultNoted true (dataRequest asi kind a) ft l s u) : DataFaultLeaves asi kind a ft l s u.mmu := by
  have hfar : u.mmu.far = a := h.far
  refine ⟨⟨h.ow, h.ftype, h.level⟩, hfar, h.fav, (congrArg _ h.atype).trans (accessCode_dataRequest ..), ?_⟩
  obtain ⟨-, -, -, hm, -⟩ := (h.kept.walked a).translation
  conv_lhs => rw [hm]
  simp only [if_true, hfar, h.kept.kept.dtlb]

theorem FaultNoted.fetchLeaves {ft : BitVec 3} {l : Nat} {s u : State}
    (h : FaultNoted false (fetchRequest s.pc s) ft l s u) : FetchFaultLeaves ft l s u.mmu := by
  have hfar : u.mmu.far = s.mmu.far := h.far
  refine ⟨⟨h.ow, h.ftype, h.level⟩, h.fav, h.atype.trans (accessCode_fetchRequest ..), ?_⟩
  obtain ⟨-, -, -, hm, -⟩ := (h.kept.walked s.pc).translation
  conv_lhs => rw [hm]
  simp only [Bool.false_eq_true, if_false, hfar, h.kept.kept.itlb]

/-! ## The trap -/

/-- What the entry into a trap handler from window `w` and its cause in the MMU write. -/
def trapWrites (w : BitVec 3) : Writes where
  slots := [slot (w - 1) 17, slot (w - 1) 18]
  mode := true
  cwp := true
  tt := true
  mmu := true

/-- The entry into the handler of a trap whose cause has written to the MMU alone (R790). -/
def EnteredFrom (s : State) (tt : TrapType) (t : State) : Prop :=
  t.trapped = true ∧ t.tbr.tt = tt ∧ t.pc = s.tbr.tba ++ tt ++ 0#4 ∧ t.npc = t.pc + 4 ∧
    t.psr = { s.psr with et := false, ps := s.psr.s, s := true, cwp := s.psr.cwp - 1 } ∧
    readReg 17 t = s.pc ∧ readReg 18 t = s.npc ∧
    Frame (trapWrites s.psr.cwp) s t

theorem slot_l1_ne_l2 (w : BitVec 3) : slot w 17 ≠ slot w 18 := by
  revert w; decide

theorem enteredFrom_takeTrap {data : Bool} {s u : State} (he : s.psr.et = true) (k : FaultKept data s u) (tt : TrapType) :
    EnteredFrom s tt (takeTrap tt u) := by
  obtain ⟨hpc, hnpc, hpsr, htbr⟩ := reached_pcs k.only.reached
  have hf := (frame_of_unwritten (w := trapWrites s.psr.cwp) rfl k.only k.kept).takeTrap (hpsr ▸ he) tt
    (by simp [trapWrites, hpsr]) (by simp [trapWrites, hpsr]) rfl rfl rfl
  refine ⟨takeTrap_trapped tt u, by simp, ?_, ?_, ?_, ?_, ?_, hf⟩ <;> rw [takeTrap_of_et (hpsr ▸ he)]
  · show trapVector { u.tbr with tt := tt } = _
    rw [htbr]
    rfl
  · exact congrArg (fun p : Psr => { p with et := false, ps := p.s, s := true, cwp := p.cwp - 1 }) hpsr
  · show readRegIn (u.psr.cwp - 1) 17 (writeRegIn (u.psr.cwp - 1) 18 u.npc (writeRegIn (u.psr.cwp - 1) 17 u.pc u)) = s.pc
    rw [readRegIn_writeRegIn_of_slot_ne (slot_l1_ne_l2 _), readRegIn_writeRegIn_same _ (by decide), hpc]
  · show readRegIn (u.psr.cwp - 1) 18 (writeRegIn (u.psr.cwp - 1) 18 u.npc (writeRegIn (u.psr.cwp - 1) 17 u.pc u)) = s.npc
    rw [readRegIn_writeRegIn_same _ (by decide), hnpc]

/-! ## Instructions whose access has no target -/

section Primitives

variable {asi : Asi} {w : Width} {a : Word} {s u : State} {tt : TrapType} (k : DwordKind) (d : BitVec 64)
  (ha : aligned w a = true) (hs : spaceOf asi ≠ .special)
include ha hs

theorem memRead_of_trap (h : memoryTarget (spaceOf asi) .load a s = .trap tt u) : memRead asi w k a s = .trap tt u := by
  rw [memRead, if_pos ha]
  split
  · contradiction
  · rw [h, andThen_trap]

theorem memRead_of_suppressed (h : memoryTarget (spaceOf asi) .load a s = .ok none u) :
    memRead asi w k a s = .ok (freeValue u) (drawn u) := by
  rw [memRead, if_pos ha]
  split
  · contradiction
  · rw [h, andThen_ok]

theorem memWrite_of_trap (h : memoryTarget (spaceOf asi) .store a s = .trap tt u) : memWrite asi w k a d s = .trap tt u := by
  rw [memWrite, if_pos ha]
  split
  · contradiction
  · rw [h, andThen_trap]

theorem memWrite_of_suppressed (h : memoryTarget (spaceOf asi) .store a s = .ok none u) :
    memWrite asi w k a d s = .ok () u := by
  rw [memWrite, if_pos ha]
  split
  · contradiction
  · rw [h, andThen_ok]

theorem memSwap_of_trap (h : memoryTarget (spaceOf asi) .store a s = .trap tt u) : memSwap asi w a d s = .trap tt u := by
  rw [memSwap, if_pos ha]
  split
  · contradiction
  · rw [h, andThen_trap]

theorem memSwap_of_suppressed (h : memoryTarget (spaceOf asi) .store a s = .ok none u) :
    memSwap asi w a d s = .ok (freeValue u) (drawn u) := by
  rw [memSwap, if_pos ha]
  split
  · contradiction
  · rw [h, andThen_ok]

end Primitives

/-- An instruction in its plain form or in its alternate form is one function of the address space and the address. -/
theorem exec_of_accessForm {plain alt : Instr} {rs1 rs2 : Reg} {o : Opnd2} {asi : Asi} {a : Word} {s : State} {i : Instr}
    (h : AccessForm plain alt rs1 rs2 o asi a s i) (f : Asi → Word → Result)
    (hp : exec plain s = f (dataAsi s) (address rs1 o s))
    (ha : exec alt s = alternate false s (f asi (altAddress rs1 rs2 s))) : exec i s = f asi a := by
  rcases h with ⟨rfl, rfl, rfl⟩ | ⟨rfl, hsup, rfl⟩
  · exact hp
  · rw [ha, alternate_of_supervisor hsup]
    rfl

/-- What an instruction does whose one access has no target: it takes the trap, or where the fault is suppressed it completes
and writes at most the registers at `slots`. -/
structure WithoutTarget (kind : Access) (slots : List Nat) (asi : Asi) (a : Word) (s : State) (i : Instr) : Prop where
  trap : ∀ tt u, memoryTarget (spaceOf asi) kind a s = .trap tt u → exec i s = .next (takeTrapWith tt s u)
  suppressed : ∀ u, memoryTarget (spaceOf asi) kind a s = .ok none u → u.psr = s.psr →
    ∃ t, exec i s = .next t ∧ Advanced u t ∧ t.trapped = u.trapped ∧ t.mmu = u.mmu ∧
      ∀ w : Writes, w.slots = slots → Frame w s u → Frame w s t

section Forms

variable {rd rs1 rs2 : Reg} {o : Opnd2} {asi : Asi} {a : Word} {s : State} {i : Instr}

/-- A word that the instruction reads, into `rd`. -/
theorem advanced_of_writeReg {u : State} (hpsr : u.psr = s.psr) (x : Word) :
    Advanced u (advance (writeReg rd x (drawn u))) ∧ (advance (writeReg rd x (drawn u))).trapped = u.trapped ∧
      (advance (writeReg rd x (drawn u))).mmu = u.mmu ∧ ∀ w : Writes, w.slots = [slot s.psr.cwp rd] → Frame w s u →
        Frame w s (advance (writeReg rd x (drawn u))) :=
  ⟨⟨by simp, by simp⟩, by simp, by simp, fun w hw hf => (hf.drawn.writeReg (by simp [hw, hpsr]) x).advance⟩

theorem withoutTarget_load (ha : aligned .word a = true) (hs : spaceOf asi ≠ .special)
    (h : AccessForm (.ld rd rs1 o) (.lda rd rs1 false asi rs2) rs1 rs2 o asi a s i) :
    WithoutTarget .load [slot s.psr.cwp rd] asi a s i := by
  have hx := exec_of_accessForm h (fun asi a => loadReg .word lowWord asi rd a s) rfl rfl
  refine ⟨fun tt u hu => ?_, fun u hu hpsr => ⟨_, ?_, advanced_of_writeReg hpsr (lowWord (freeValue u))⟩⟩
  · rw [hx, loadReg, memRead_of_trap _ ha hs hu, andThen_trap, finish_trap]
  · rw [hx, loadReg, memRead_of_suppressed _ ha hs hu, andThen_ok, finish_ok]

theorem withoutTarget_store (ha : aligned .word a = true) (hs : spaceOf asi ≠ .special)
    (h : AccessForm (.st rd rs1 o) (.sta rd rs1 false asi rs2) rs1 rs2 o asi a s i) :
    WithoutTarget .store [] asi a s i := by
  have hx := exec_of_accessForm h (fun asi a => storeReg .word asi rd a s) rfl rfl
  refine ⟨fun tt u hu => ?_, fun u hu _ => ⟨advance u, ?_, ⟨rfl, rfl⟩, rfl, rfl, fun w _ hf => hf.advance⟩⟩
  · rw [hx, storeReg, memWrite_of_trap _ _ ha hs hu, andThen_trap, finish_trap]
  · rw [hx, storeReg, memWrite_of_suppressed _ _ ha hs hu, andThen_ok, finish_ok]

theorem withoutTarget_swap (ha : aligned .word a = true) (hs : spaceOf asi ≠ .special)
    (h : AccessForm (.swap rd rs1 o) (.swapa rd rs1 false asi rs2) rs1 rs2 o asi a s i) :
    WithoutTarget .store [slot s.psr.cwp rd] asi a s i := by
  have hx := exec_of_accessForm h (fun asi a => swapReg asi rd a s) rfl rfl
  refine ⟨fun tt u hu => ?_, fun u hu hpsr => ⟨_, ?_, advanced_of_writeReg hpsr (lowWord (freeValue u))⟩⟩
  · rw [hx, swapReg, memSwap_of_trap _ ha hs hu, andThen_trap, finish_trap]
  · rw [hx, swapReg, memSwap_of_suppressed _ ha hs hu, andThen_ok, finish_ok]

end Forms

/-! ## The obligation -/

/-- The fault of a data access: with NF = 0 and in ASI 0x09 the trap, else the completion (R57). -/
theorem dataFault_recorded {asi : Asi} {kind : Access} {a : Word} {s v : State} {ft : BitVec 3} {l : BitVec 2}
    {slots : List Nat} {i : Instr} (hen : s.mmu.cntl.en = true) (h8 : 8 ≤ asi.toNat) (h11 : asi.toNat ≤ 11)
    (h : translateData (dataRequest asi kind a) s = .mmuFault ft l v) (hi : WithoutTarget kind slots asi a s i) :
    (s.psr.et = true → s.mmu.cntl.nf = false ∨ asi = 0x09 →
      ∃ t, exec i s = .next t ∧ EnteredFrom s 0x09 t ∧ DataFaultLeaves asi kind a ft l.toNat s t.mmu) ∧
    (s.mmu.cntl.nf = true → asi ≠ 0x09 → NoDataBreak s → Completes i s fun t =>
      Advanced s t ∧ t.trapped = s.trapped ∧ DataFaultLeaves asi kind a ft l.toNat s t.mmu ∧
        Frame { slots := slots, mmu := true } s t) := by
  obtain ⟨u, hn, hp⟩ := dataPage_notes_fault hen h
  have h9 : asi = 0x09 ↔ asi.toNat = 9 := by rw [← BitVec.toNat_inj]; rfl
  have hnf : (s.mmu.cntl.nf && !((dataRequest asi kind a).instr && !(dataRequest asi kind a).user)) = true ↔
      s.mmu.cntl.nf = true ∧ asi ≠ 0x09 := by
    simp only [dataRequest, Bool.and_eq_true, Bool.not_eq_true', Bool.and_eq_false_iff, decide_eq_false_iff_not,
      Bool.not_eq_false', decide_eq_true_eq, ne_eq, h9]
    exact and_congr_right fun _ => by omega
  refine ⟨fun het hq => ?_, fun hnf1 hq hb => ?_⟩
  · rw [if_neg (hnf.not.mpr fun ⟨h1, h2⟩ => hq.elim (fun h0 => by simp [h0] at h1) h2)] at hp
    have ht : memoryTarget (spaceOf asi) kind a s = .trap 0x09 u := by
      rw [memoryTarget_translated h8 h11, dataTarget, hp, andThen_trap]
      rfl
    refine ⟨_, hi.trap _ _ ht, ?_, ?_⟩ <;> rw [takeTrapWith_of_et het]
    · exact enteredFrom_takeTrap het hn.kept _
    · rw [takeTrap_mmu]
      exact hn.dataLeaves
  · rw [if_pos (hnf.mpr ⟨hnf1, hq⟩)] at hp
    have ht : memoryTarget (spaceOf asi) kind a s = .ok none u := by
      rw [memoryTarget_translated h8 h11, dataTarget_of_noDataBreak _ hb, hp]
    obtain ⟨-, hnpc, hpsr, -⟩ := reached_pcs hn.kept.only.reached
    have htrapped : u.trapped = s.trapped := by rw [hn.kept.only.only]
    obtain ⟨t, he, ⟨hpc', hnpc'⟩, htr, hm, hf⟩ := hi.suppressed u ht hpsr
    refine ⟨t, he, ⟨hpc'.trans hnpc, hnpc'.trans (by rw [hnpc])⟩, htr.trans htrapped, ?_,
      hf _ rfl (frame_of_unwritten rfl hn.kept.only hn.kept.kept)⟩
    rw [hm]
    exact hn.dataLeaves

/-- The fault of a fetch: always the trap. -/
theorem fetchFault_recorded {s v : State} {ft : BitVec 3} {l : BitVec 2} (hen : s.mmu.cntl.en = true)
    (het : s.psr.et = true) (h : translateFetch (fetchRequest s.pc s) s = .mmuFault ft l v) :
    ∃ t, runInstruction s = .next t ∧ EnteredFrom s 0x01 t ∧ FetchFaultLeaves ft l.toNat s t.mmu := by
  obtain ⟨u, hn, hp⟩ := fetchTarget_notes_fault hen h
  refine ⟨_, runInstruction_of_fetch_trap hp, ?_, ?_⟩ <;> rw [takeTrapWith_of_et het]
  · exact enteredFrom_takeTrap het hn.kept _
  · rw [takeTrap_mmu]
    exact hn.fetchLeaves

theorem toNat_level {k j : Nat} (h : k + j ≤ 3) : (BitVec.ofNat 2 (k + j)).toNat = k + j := by
  rw [BitVec.toNat_ofNat]
  omega

/-- Settles O46: each access that finds no page records its fault, and traps or completes. -/
theorem deniedLoadIsRecorded : Obligations.DeniedLoadIsRecorded := by
  intro rd rs1 rs2 o asi a s hen
  refine ⟨fun h8 h11 ha => ?_, fun het => ?_⟩
  · have hal : aligned .word a = true := by simp [aligned, bytesOf, ha]
    have hs : spaceOf asi ≠ .special := by rw [spaceOf_translated h8 h11]; exact nofun
    intro user recorded kind _
    have key : ∀ ft (l : BitVec 2) v, translateData (dataRequest asi kind a) s = .mmuFault ft l v →
        recorded kind ft l.toNat := by
      intro ft l v h q hq hk i hi
      refine dataFault_recorded hen h8 h11 h ?_
      subst hk
      simp only [List.mem_cons, List.not_mem_nil, or_false] at hq
      rcases hq with rfl | rfl | rfl
      · exact withoutTarget_load hal hs hi
      · exact withoutTarget_store hal hs hi
      · exact withoutTarget_swap hal hs hi
    refine ⟨fun k ft hit ⟨hn, hd⟩ => key ft _ s ?_, fun hmiss hv k j e read ft hst he hf => ?_⟩
    · exact translateData_of_denied (q := dataRequest asi kind a) rfl hit hn hd
    · have hm := translateMiss_of_fails (q := dataRequest asi kind a) rfl (noVictim_data hv) hst he hf
      have := key ft _ _ ((translateData_of_miss (q := dataRequest asi kind a) hmiss).trans hm)
      rwa [toNat_level he.1] at this
  · intro user recorded
    have hu := fetchRequest_user s.pc s
    have key : ∀ ft (l : BitVec 2) v, translateFetch (fetchRequest s.pc s) s = .mmuFault ft l v → recorded ft l.toNat := by
      intro ft l v h
      obtain ⟨t, hr, he, hn, hl⟩ := fetchFault_recorded hen het h
      exact ⟨t, hr, he, hn, hl⟩
    refine ⟨fun k ft hit ⟨hn, hd⟩ => key ft _ s ?_, fun hmiss hv k j e read ft hst he hf => ?_⟩
    · exact translateFetch_of_denied (q := fetchRequest s.pc s) hu hit hn hd
    · have hm := translateMiss_of_fails (q := fetchRequest s.pc s) hu (noVictim_instr hv) hst he hf
      have := key ft _ _ ((translateFetch_of_miss (q := fetchRequest s.pc s) hmiss).trans hm)
      rwa [toNat_level he.1] at this

end Sys2Proof.Machine
end

section
/-! The monitor's registers through ASI 0x38 to 0x4C, and address spaces that the chip does not implement (R722 to R738, D14). -/

namespace Sys2Proof.Machine

open Sys2Proof.Spec

/-! ## Words in doublewords -/

@[simp] theorem lowWord_setWidth (w : Word) : lowWord (w.setWidth 64) = w := by
  apply BitVec.eq_of_toNat_eq
  have := w.isLt
  rw [lowWord, BitVec.extractLsb'_toNat, BitVec.toNat_setWidth, Nat.shiftRight_zero]
  omega

@[simp] theorem highWord_setWidth (w : Word) : highWord (w.setWidth 64) = 0 := by
  apply BitVec.eq_of_toNat_eq
  have := w.isLt
  rw [highWord, BitVec.extractLsb'_toNat, BitVec.toNat_setWidth, Nat.shiftRight_eq_div_pow]
  exact Nat.mod_eq_zero_of_dvd (by omega)

/-- Zeros before a register do not change the doubleword it is read as. -/
theorem setWidth_zero_append (n : Nat) {m : Nat} (x : BitVec m) : ((0#n ++ x).setWidth 64 : BitVec 64) = x.setWidth 64 := by
  apply BitVec.eq_of_toNat_eq
  rw [BitVec.toNat_setWidth, BitVec.toNat_setWidth, BitVec.toNat_append]
  simp

theorem extract_append_low {n k : Nat} (h : k ≤ n) {m : Nat} (x : BitVec m) (y : BitVec n) :
    (x ++ y).extractLsb' 0 k = y.extractLsb' 0 k := by
  apply BitVec.eq_of_toNat_eq
  simp only [BitVec.extractLsb'_toNat, Nat.shiftRight_zero]
  exact append_mod h x y

theorem getLsbD_append_low {n k : Nat} (h : k < n) {m : Nat} (x : BitVec m) (y : BitVec n) :
    (x ++ y).getLsbD k = y.getLsbD k := by
  rw [BitVec.getLsbD_append, if_pos h]

/-! ## The two registers of a doubleword load -/

theorem slot_pairOdd_ne {r : Reg} (h : r.getLsbD 0 = false) (w : BitVec 3) : slot w r ≠ slot w (pairOdd r) := by
  revert r w; decide

/-- A doubleword load leaves its high word in the even register and its low word in the odd one. -/
theorem holds_pair {rd : Reg} (h : rd.getLsbD 0 = false) (hi lo : Word) (s : State) :
    Holds rd hi (advance (writeReg (pairOdd rd) lo (writeReg rd hi s))) ∧
      Holds (pairOdd rd) lo (advance (writeReg (pairOdd rd) lo (writeReg rd hi s))) := by
  refine ⟨?_, holds_advance_writeReg ..⟩
  have hk : readReg rd (writeReg (pairOdd rd) lo (writeReg rd hi s)) = readReg rd (writeReg rd hi s) := by
    rw [readReg, writeReg_psr]
    exact readRegIn_writeRegIn_of_slot_ne (slot_pairOdd_ne h _) lo _
  exact hk.trans (readReg_writeReg_same rd hi s)

/-! ## Accesses outside memory -/

theorem takeTrapWith_self (tt : TrapType) (s : State) : takeTrapWith tt s s = takeTrap tt s := by
  rw [takeTrapWith, ite_self]

section Special

variable {asi : Asi} {w : Width} {a : Word} (ha : aligned w a = true) (hs : spaceOf asi = .special)
include ha hs

theorem memRead_special (k : DwordKind) (s : State) : memRead asi w k a s = loadAsi asi w a s := by
  rw [memRead, if_pos ha, hs]

theorem memWrite_special (k : DwordKind) (d : BitVec 64) (s : State) : memWrite asi w k a d s = storeAsi asi w a d s := by
  rw [memWrite, if_pos ha, hs]

/-- Outside memory an atomic traps where the chip has no such space (D14). -/
theorem memSwap_special (hn : asiImplemented asi = false) (d : BitVec 64) (s : State) :
    memSwap asi w a d s = .trap ttDataAccess s := by
  rw [memSwap, if_pos ha, hs]
  simp only [hn]
  rfl

end Special

/-- The word and doubleword accesses of a supervisor at an aligned address in a space that is not memory. -/
structure SpecialAccess (w : Width) (rs1 rs2 : Reg) (asi : Asi) (s : State) : Prop where
  supervisor : s.psr.s = true
  aligned : aligned w (altAddress rs1 rs2 s) = true
  special : spaceOf asi = .special

section Accesses

variable {rd rs1 rs2 : Reg} {asi : Asi} {s : State}

theorem exec_lda (h : SpecialAccess .word rs1 rs2 asi s) : exec (.lda rd rs1 false asi rs2) s =
    finish s (andThen (loadAsi asi .word (altAddress rs1 rs2 s) s) fun d t => .ok () (advance (writeReg rd (lowWord d) t))) := by
  have hx : exec (.lda rd rs1 false asi rs2) s = alternate false s (loadReg .word lowWord asi rd (altAddress rs1 rs2 s) s) := rfl
  rw [hx, alternate_of_supervisor h.supervisor, loadReg, memRead_special h.aligned h.special]

theorem exec_sta (h : SpecialAccess .word rs1 rs2 asi s) : exec (.sta rd rs1 false asi rs2) s =
    finish s (andThen (storeAsi asi .word (altAddress rs1 rs2 s) ((readReg rd s).setWidth 64) s) fun _ t =>
      .ok () (advance t)) := by
  have hx : exec (.sta rd rs1 false asi rs2) s = alternate false s (storeReg .word asi rd (altAddress rs1 rs2 s) s) := rfl
  rw [hx, alternate_of_supervisor h.supervisor, storeReg, memWrite_special h.aligned h.special]

theorem exec_ldda (h : SpecialAccess .dword rs1 rs2 asi s) (he : rd.getLsbD 0 = false) :
    exec (.ldda rd rs1 false asi rs2) s =
      finish s (andThen (loadAsi asi .dword (altAddress rs1 rs2 s) s) fun d t =>
        .ok () (advance (writeReg (pairOdd rd) (lowWord d) (writeReg rd (highWord d) t)))) := by
  have hx : exec (.ldda rd rs1 false asi rs2) s = alternate false s (loadPair asi rd (altAddress rs1 rs2 s) s) := rfl
  rw [hx, alternate_of_supervisor h.supervisor, loadPair, he, memRead_special h.aligned h.special]
  rfl

theorem exec_stda (h : SpecialAccess .dword rs1 rs2 asi s) (he : rd.getLsbD 0 = false) :
    exec (.stda rd rs1 false asi rs2) s =
      finish s (andThen (storeAsi asi .dword (altAddress rs1 rs2 s) (readReg rd s ++ readReg (pairOdd rd) s) s) fun _ t =>
        .ok () (advance t)) := by
  have hx : exec (.stda rd rs1 false asi rs2) s = alternate false s (storePair asi rd (altAddress rs1 rs2 s) s) := rfl
  rw [hx, alternate_of_supervisor h.supervisor, storePair, he, memWrite_special h.aligned h.special]
  rfl

/-- The instruction completes and leaves the monitor as `m`. -/
def WritesMonitor (i : Instr) (s : State) (m : Monitor) : Prop :=
  Completes i s fun t => Advanced s t ∧ Frame { monitor := true } s t ∧ t.mon = m

/-- The load completes with `w` in `rd` and changes nothing else. -/
def LoadsWord (i : Instr) (rd : Reg) (s : State) (w : Word) : Prop :=
  Completes i s fun t => Advanced s t ∧ Holds rd w t ∧ Frame { slots := [slot s.psr.cwp rd] } s t

/-- The doubleword load completes with `w` in the odd register and 0 in the even one, and changes nothing else. -/
def LoadsLowWord (i : Instr) (rd : Reg) (s : State) (w : Word) : Prop :=
  Completes i s fun t => Advanced s t ∧ Holds rd 0 t ∧ Holds (rd ||| 1) w t ∧
    Frame { slots := [slot s.psr.cwp rd, slot s.psr.cwp (rd ||| 1)] } s t

/-- A store to the monitor that may also mark a counter as written. -/
theorem sta_writes_marking (h : SpecialAccess .word rs1 rs2 asi s) {m : Monitor} {a b : Bool}
    (hm : storeAsi asi .word (altAddress rs1 rs2 s) ((readReg rd s).setWidth 64) s =
      .ok () { s with mon := m, wroteA := a, wroteB := b }) :
    Completes (.sta rd rs1 false asi rs2) s fun t =>
      Advanced s t ∧ Frame { monitor := true } s t ∧ t.mon = m ∧ t.wroteA = a ∧ t.wroteB = b :=
  ⟨advance { s with mon := m, wroteA := a, wroteB := b }, by rw [exec_sta h, hm, andThen_ok, finish_ok], ⟨rfl, rfl⟩,
    { (Frame.refl { monitor := true } s).setMon rfl m with }, rfl, rfl, rfl⟩

theorem sta_writes (h : SpecialAccess .word rs1 rs2 asi s) {m : Monitor}
    (hm : storeAsi asi .word (altAddress rs1 rs2 s) ((readReg rd s).setWidth 64) s = .ok () { s with mon := m }) :
    WritesMonitor (.sta rd rs1 false asi rs2) s m := by
  obtain ⟨t, he, hadv, hf, ht, -⟩ := sta_writes_marking h hm
  exact ⟨t, he, hadv, hf, ht⟩

theorem stda_writes (h : SpecialAccess .dword rs1 rs2 asi s) (he : rd.getLsbD 0 = false) {m : Monitor}
    (hm : storeAsi asi .dword (altAddress rs1 rs2 s) (readReg rd s ++ readReg (pairOdd rd) s) s = .ok () { s with mon := m }) :
    WritesMonitor (.stda rd rs1 false asi rs2) s m :=
  ⟨_, by rw [exec_stda h he, hm, andThen_ok, finish_ok], ⟨rfl, rfl⟩, ((Frame.refl _ s).setMon rfl m).advance, rfl⟩

theorem lda_reads (h : SpecialAccess .word rs1 rs2 asi s) {w : Word}
    (hw : loadAsi asi .word (altAddress rs1 rs2 s) s = .ok (w.setWidth 64) s) :
    LoadsWord (.lda rd rs1 false asi rs2) rd s w :=
  ⟨advance (writeReg rd w s), by rw [exec_lda h, hw, andThen_ok, finish_ok, lowWord_setWidth], ⟨by simp, by simp⟩,
    holds_advance_writeReg .., ((Frame.refl _ s).writeReg (by simp) w).advance⟩

theorem ldda_reads (h : SpecialAccess .dword rs1 rs2 asi s) (he : rd.getLsbD 0 = false) {w : Word}
    (hw : loadAsi asi .dword (altAddress rs1 rs2 s) s = .ok (w.setWidth 64) s) :
    LoadsLowWord (.ldda rd rs1 false asi rs2) rd s w := by
  obtain ⟨hhi, hlo⟩ := holds_pair he 0 w s
  have hf : Frame { slots := [slot s.psr.cwp rd, slot s.psr.cwp (pairOdd rd)] } s
      (advance (writeReg (pairOdd rd) w (writeReg rd 0 s))) :=
    (((Frame.refl _ s).writeReg (by simp) 0).writeReg (by simp) w).advance
  exact ⟨_, by rw [exec_ldda h he, hw, andThen_ok, finish_ok, lowWord_setWidth, highWord_setWidth], ⟨by simp, by simp⟩,
    hhi, hlo, hf⟩

/-- A load that uses up a free value: the word it reads may be anything. -/
theorem lda_reads_free (h : SpecialAccess .word rs1 rs2 asi s) {d : BitVec 64}
    (hd : loadAsi asi .word (altAddress rs1 rs2 s) s = .ok d (drawn s)) :
    Completes (.lda rd rs1 false asi rs2) s fun t => Advanced s t ∧ Frame { slots := [slot s.psr.cwp rd] } s t :=
  ⟨_, by rw [exec_lda h, hd, andThen_ok, finish_ok], ⟨by simp, by simp⟩,
    ((Frame.refl _ s).drawn.writeReg (by simp) _).advance⟩

theorem sta_refused (h : SpecialAccess .word rs1 rs2 asi s) {r : Refusal}
    (hr : storeAsi asi .word (altAddress rs1 rs2 s) ((readReg rd s).setWidth 64) s = .refused r) :
    exec (.sta rd rs1 false asi rs2) s = .refused r := by
  rw [exec_sta h, hr]; rfl

theorem stda_refused (h : SpecialAccess .dword rs1 rs2 asi s) (he : rd.getLsbD 0 = false) {r : Refusal}
    (hr : storeAsi asi .dword (altAddress rs1 rs2 s) (readReg rd s ++ readReg (pairOdd rd) s) s = .refused r) :
    exec (.stda rd rs1 false asi rs2) s = .refused r := by
  rw [exec_stda h he, hr]; rfl

theorem ldda_refused (h : SpecialAccess .dword rs1 rs2 asi s) (he : rd.getLsbD 0 = false) {r : Refusal}
    (hr : loadAsi asi .dword (altAddress rs1 rs2 s) s = .refused r) :
    exec (.ldda rd rs1 false asi rs2) s = .refused r := by
  rw [exec_ldda h he, hr]; rfl

end Accesses

/-! ## The settings of the counters -/

/-- A counter with these settings counts cycles in some mode (R820). -/
def CountsCycles (enable : Bool) (sel : BitVec 8) (user kernel : Bool) : Prop :=
  enable = true ∧ sel = 0 ∧ (user = true ∨ kernel = true)

theorem cyclesA_iff (c : Ctrc) : cyclesA c = true ↔ CountsCycles c.aen c.selA c.ua c.ka := by
  simp [cyclesA, CountsCycles, and_assoc]

theorem cyclesB_iff (c : Ctrc) : cyclesB c = true ↔ CountsCycles c.ben c.selB c.ub c.kb := by
  simp [cyclesB, CountsCycles, and_assoc]

theorem cycleInterrupt_iff (c : Ctrc) (action : BitVec 13) : cycleInterrupt c action = true ↔
    (CountsCycles c.aen c.selA c.ua c.ka ∧ action.getLsbD 2 = true) ∨
      (CountsCycles c.ben c.selB c.ub c.kb ∧ action.getLsbD 0 = true) := by
  rw [cycleInterrupt, Bool.or_eq_true, Bool.and_eq_true, Bool.and_eq_true, cyclesA_iff, cyclesB_iff, intA, intB]

/-- The parts of two words of counter settings, each an eight-bit selection and three bits, with five zeros after them. -/
theorem counterFields_append (a b : BitVec 8) (u k e u' k' e' : Bool) :
    let w := a ++ BitVec.ofBool u ++ BitVec.ofBool k ++ BitVec.ofBool e ++ 0#5 ++ b ++ BitVec.ofBool u' ++ BitVec.ofBool k' ++
      BitVec.ofBool e' ++ 0#5
    w.extractLsb' 24 8 = a ∧ w.getLsbD 23 = u ∧ w.getLsbD 22 = k ∧ w.getLsbD 21 = e ∧ w.extractLsb' 16 5 = 0 ∧
      w.extractLsb' 8 8 = b ∧ w.getLsbD 7 = u' ∧ w.getLsbD 6 = k' ∧ w.getLsbD 5 = e' ∧ w.extractLsb' 0 5 = 0 := by
  refine ⟨?_, ?_, ?_, ?_, ?_, ?_, ?_, ?_, ?_, ?_⟩ <;>
    simp (disch := decide) only [BitVec.getLsbD_append, BitVec.extractLsb'_append_eq_of_le,
      BitVec.extractLsb'_append_eq_of_add_le] <;> simp

/-- The fields of CTRC in the word it reads as (R81). -/
theorem ctrcWord_fields (c : Ctrc) : (ctrcWord c).extractLsb' 24 8 = c.selA ∧ (ctrcWord c).getLsbD 23 = c.ua ∧
    (ctrcWord c).getLsbD 22 = c.ka ∧ (ctrcWord c).getLsbD 21 = c.aen ∧ (ctrcWord c).extractLsb' 16 5 = 0 ∧
    (ctrcWord c).extractLsb' 8 8 = c.selB ∧ (ctrcWord c).getLsbD 7 = c.ub ∧ (ctrcWord c).getLsbD 6 = c.kb ∧
    (ctrcWord c).getLsbD 5 = c.ben ∧ (ctrcWord c).extractLsb' 0 5 = 0 :=
  counterFields_append ..

/-! ## The registers -/

section Registers

variable {rd rs1 rs2 : Reg} {s : State}

theorem specialAccess_word (hs : s.psr.s = true) (ha : (readReg rs1 s + readReg rs2 s).toNat % 4 = 0) {asi : Asi}
    (h : asi.toNat < 8 ∨ 11 < asi.toNat) (hb : asi.extractLsb' 4 4 ≠ 2) : SpecialAccess .word rs1 rs2 asi s :=
  ⟨hs, by simpa [aligned, bytesOf, altAddress] using ha, spaceOf_special h hb⟩

theorem specialAccess_dword (hs : s.psr.s = true) (ha : (readReg rs1 s + readReg rs2 s).toNat % 8 = 0) {asi : Asi}
    (h : asi.toNat < 8 ∨ 11 < asi.toNat) (hb : asi.extractLsb' 4 4 ≠ 2) : SpecialAccess .dword rs1 rs2 asi s :=
  ⟨hs, by simpa [aligned, bytesOf, altAddress] using ha, spaceOf_special h hb⟩

/-- The word stores that take every value: KERNEL and the counters, which the instruction marks as written (R820). -/
theorem storeMonitor_word (a v : Word) (s : State) :
    storeAsi 0x40 .word a (v.setWidth 64) s = .ok () { s with mon := { s.mon with kernel := v } } ∧
    storeAsi 0x48 .word a (v.setWidth 64) s = .ok () { s with mon := { s.mon with counterA := v }, wroteA := true } ∧
    storeAsi 0x49 .word a (v.setWidth 64) s = .ok () { s with mon := { s.mon with counterB := v }, wroteB := true } := by
  have hv := lowWord_setWidth v
  rw [lowWord] at hv
  refine ⟨?_, ?_, ?_⟩ <;> conv_rhs => rw [← hv]
  all_goals rfl

/-- A load of a counter completes; where it counts cycles nothing is known of the value (R820, log 19). -/
theorem lda_counter {asi : Asi} (h : SpecialAccess .word rs1 rs2 asi s) {cycles : Bool} {value : Word} {counts : Prop}
    (hc : cycles = true ↔ counts)
    (hl : loadAsi asi .word (altAddress rs1 rs2 s) s =
      if cycles then .ok ((freeValue s).extractLsb' 0 32 |>.setWidth 64) (drawn s) else .ok (value.setWidth 64) s) :
    Completes (.lda rd rs1 false asi rs2) s fun t => Advanced s t ∧ Frame { slots := [slot s.psr.cwp rd] } s t ∧
      (¬ counts → Holds rd value t) := by
  rw [← hc]
  cases cycles
  · obtain ⟨t, he, hadv, hv, hf⟩ := lda_reads (rd := rd) h hl
    exact ⟨t, he, hadv, hf, fun _ => hv⟩
  · obtain ⟨t, he, hadv, hf⟩ := lda_reads_free (rd := rd) h hl
    exact ⟨t, he, hadv, hf, fun hn => absurd rfl hn⟩

/-- A load of CTRS clears it (R736). -/
theorem lda_ctrs (h : SpecialAccess .word rs1 rs2 0x4B s) : Completes (.lda rd rs1 false 0x4B rs2) s fun t =>
    Advanced s t ∧ (∀ w : Word, w.toNat = 2 * s.mon.zacis.toNat + s.mon.zbcis.toNat → Holds rd w t) ∧
      t.mon = { s.mon with zacis := false, zbcis := false } ∧
      Frame { slots := [slot s.psr.cwp rd], monitor := true } s t := by
  have hw : loadAsi 0x4B .word (altAddress rs1 rs2 s) s =
      .ok ((0#30 ++ BitVec.ofBool s.mon.zacis ++ BitVec.ofBool s.mon.zbcis : Word).setWidth 64)
        { s with mon := { s.mon with zacis := false, zbcis := false } } := rfl
  have hf := ((Frame.refl { slots := [slot s.psr.cwp rd], monitor := true } s).setMon rfl
    { s.mon with zacis := false, zbcis := false }).writeReg (r := rd) (by simp)
    (0#30 ++ BitVec.ofBool s.mon.zacis ++ BitVec.ofBool s.mon.zbcis)
  refine ⟨_, by rw [exec_lda h, hw, andThen_ok, finish_ok, lowWord_setWidth], ⟨by simp, by simp⟩, fun w hv => ?_, by simp,
    hf.advance⟩
  have hval : w = 0#30 ++ BitVec.ofBool s.mon.zacis ++ BitVec.ofBool s.mon.zbcis := by
    apply BitVec.eq_of_toNat_eq
    rw [hv]
    cases s.mon.zacis <;> cases s.mon.zbcis <;> rfl
  rw [hval]
  exact holds_advance_writeReg ..

/-- A store of CTRC: a reserved selection first, then the interrupt of a cycle counter (R734, R820). -/
theorem storeCtrc_eq (v : Word) (s : State) : storeAsi 0x4A .word (altAddress rs1 rs2 s) (v.setWidth 64) s =
    if 2 ≤ (v.extractLsb' 24 8).toNat ∨ 2 ≤ (v.extractLsb' 8 8).toNat then .refused .counterSelect
    else if cycleInterrupt (ctrcOfWord v) s.mon.action then .refused .cycleCounterInterrupt
    else .ok () { s with mon := { s.mon with ctrc := ctrcOfWord v } } := by
  have hm : storeAsi 0x4A .word (altAddress rs1 rs2 s) (v.setWidth 64) s = storeCtrc (lowWord (v.setWidth 64)) s := rfl
  rw [hm, lowWord_setWidth]
  rfl

/-- A store of ACTION, of which the low word of the doubleword counts (R738, D19). -/
theorem storeAction_eq (hi lo : Word) (s : State) : storeAsi 0x4C .dword (altAddress rs1 rs2 s) (hi ++ lo) s =
    if cycleInterrupt s.mon.ctrc (lo.extractLsb' 0 13) then .refused .cycleCounterInterrupt
    else .ok () { s with mon := { s.mon with
      action := lo.extractLsb' 0 13, pendA := s.mon.pendA && lo.getLsbD 2, pendB := s.mon.pendB && lo.getLsbD 0,
      pendC := s.mon.pendC && lo.getLsbD 3, pendD := s.mon.pendD && lo.getLsbD 1 } } := by
  have hm : storeAsi 0x4C .dword (altAddress rs1 rs2 s) (hi ++ lo) s = storeAction (hi ++ lo) s := rfl
  rw [hm, storeAction, extract_append_low (by decide)]
  simp only [intA, intB, intC, intD, BitVec.getLsbD_extractLsb']
  rfl

/-- The doublewords in ASI 0x38, at 0x000, 0x100 and 0x200 (R722). -/
theorem loadBreakpoint_eq {a : Word} (s : State) :
    (a.toNat = 0x000 → loadAsi 0x38 .dword a s = .ok (s.mon.bkv.setWidth 64) s) ∧
    (a.toNat = 0x100 → loadAsi 0x38 .dword a s = .ok (s.mon.bkm.setWidth 64) s) ∧
    (a.toNat = 0x200 → loadAsi 0x38 .dword a s = .ok ((0#25 ++ s.mon.bkc : Word).setWidth 64) s) ∧
    (a.toNat ∉ [0x000, 0x100, 0x200] → loadAsi 0x38 .dword a s = .refused .asiRegister) := by
  have hl : loadAsi 0x38 .dword a s = loadBreakpoint a s := rfl
  rw [hl, setWidth_zero_append 25 s.mon.bkc]
  refine ⟨fun h => ?_, fun h => ?_, fun h => ?_, fun h => ?_⟩ <;> unfold loadBreakpoint
  · rw [h]; rfl
  · rw [h]; rfl
  · rw [h]; rfl
  · split
    all_goals first
      | rfl
      | (rename_i e; exact absurd (by rw [e]; decide) h)

/-- The stores there: BKV and BKM take every word, BKC those with PAMD 0 (R723). -/
theorem storeBreakpoint_eq {a : Word} (hi lo : Word) (s : State) :
    (a.toNat = 0x000 → storeAsi 0x38 .dword a (hi ++ lo) s = .ok () { s with mon := { s.mon with bkv := lo } }) ∧
    (a.toNat = 0x100 → storeAsi 0x38 .dword a (hi ++ lo) s = .ok () { s with mon := { s.mon with bkm := lo } }) ∧
    (a.toNat = 0x200 → storeAsi 0x38 .dword a (hi ++ lo) s =
      if lo.getLsbD 5 then .refused .physicalBreakpoint
      else .ok () { s with mon := { s.mon with bkc := lo.extractLsb' 0 7 } }) ∧
    (a.toNat ∉ [0x000, 0x100, 0x200] → storeAsi 0x38 .dword a (hi ++ lo) s = .refused .asiRegister) := by
  have hs : storeAsi 0x38 .dword a (hi ++ lo) s = storeBreakpoint a (hi ++ lo) s := rfl
  have hlo : (hi ++ lo).extractLsb' 0 32 = lo := (extract_append_low (by decide) hi lo).trans BitVec.extractLsb'_eq_self
  rw [hs]
  refine ⟨fun h => ?_, fun h => ?_, fun h => ?_, fun h => ?_⟩ <;> unfold storeBreakpoint
  · rw [h, hlo]; rfl
  · rw [h, hlo]; rfl
  · rw [← extract_append_low (n := 32) (k := 7) (by decide) hi lo, ← getLsbD_append_low (n := 32) (k := 5) (by decide) hi lo, h]
    rfl
  · split
    all_goals first
      | rfl
      | (rename_i e; exact absurd (by rw [e]; decide) h)

end Registers

/-! ## Address spaces the chip does not implement (D14) -/

theorem loadAsi_of_unimplemented {asi : Asi} (h : asiImplemented asi = false) (w : Width) (a : Word) (s : State) :
    loadAsi asi w a s = .trap ttDataAccess s := by
  unfold loadAsi
  split
  all_goals first
    | rfl
    | (rename_i e; rw [asiImplemented, e] at h; exact absurd h (by decide))

theorem storeAsi_of_unimplemented {asi : Asi} (h : asiImplemented asi = false) (w : Width) (a : Word) (d : BitVec 64)
    (s : State) : storeAsi asi w a d s = .trap ttDataAccess s := by
  unfold storeAsi
  simp only
  split
  all_goals first
    | rfl
    | (rename_i e; rw [asiImplemented, e] at h; exact absurd h (by decide))

theorem aligned_of_eight {a : Word} (h : a.toNat % 8 = 0) (w : Width) : aligned w a = true := by
  cases w <;> simp only [aligned, bytesOf, beq_iff_eq] <;> omega

section Unimplemented

variable {rd rs1 rs2 : Reg} {asi : Asi} {s : State} (hs : s.psr.s = true) (ha : (altAddress rs1 rs2 s).toNat % 8 = 0)
  (hsp : spaceOf asi = .special) (hn : asiImplemented asi = false)
include hs ha hsp hn

theorem loadReg_unimplemented (w : Width) (ext : BitVec 64 → Word) :
    alternate false s (loadReg w ext asi rd (altAddress rs1 rs2 s) s) = .next (takeTrap ttDataAccess s) := by
  rw [alternate_of_supervisor hs, loadReg, memRead_special (aligned_of_eight ha w) hsp, loadAsi_of_unimplemented hn,
    andThen_trap, finish_trap, takeTrapWith_self]

theorem storeReg_unimplemented (w : Width) :
    alternate false s (storeReg w asi rd (altAddress rs1 rs2 s) s) = .next (takeTrap ttDataAccess s) := by
  rw [alternate_of_supervisor hs, storeReg, memWrite_special (aligned_of_eight ha w) hsp, storeAsi_of_unimplemented hn,
    andThen_trap, finish_trap, takeTrapWith_self]

theorem loadPair_unimplemented (he : rd.getLsbD 0 = false) :
    alternate false s (loadPair asi rd (altAddress rs1 rs2 s) s) = .next (takeTrap ttDataAccess s) := by
  rw [alternate_of_supervisor hs, loadPair, if_neg (by rw [he]; decide), memRead_special (aligned_of_eight ha _) hsp,
    loadAsi_of_unimplemented hn, andThen_trap, finish_trap, takeTrapWith_self]

theorem storePair_unimplemented (he : rd.getLsbD 0 = false) :
    alternate false s (storePair asi rd (altAddress rs1 rs2 s) s) = .next (takeTrap ttDataAccess s) := by
  rw [alternate_of_supervisor hs, storePair, if_neg (by rw [he]; decide), memWrite_special (aligned_of_eight ha _) hsp,
    storeAsi_of_unimplemented hn, andThen_trap, finish_trap, takeTrapWith_self]

theorem loadStoreByte_unimplemented :
    alternate false s (loadStoreByte asi rd (altAddress rs1 rs2 s) s) = .next (takeTrap ttDataAccess s) := by
  rw [alternate_of_supervisor hs, loadStoreByte, memSwap_special (aligned_of_eight ha _) hsp hn, andThen_trap, finish_trap,
    takeTrapWith_self]

theorem swapReg_unimplemented :
    alternate false s (swapReg asi rd (altAddress rs1 rs2 s) s) = .next (takeTrap ttDataAccess s) := by
  rw [alternate_of_supervisor hs, swapReg, memSwap_special (aligned_of_eight ha _) hsp hn, andThen_trap, finish_trap,
    takeTrapWith_self]

end Unimplemented

/-! ## The obligation -/

section Registers

variable (rd : Reg) {rs1 rs2 : Reg} {s : State}

/-- CTRC is read as a word of its fields, and takes the settings that mean something (R734, R820). -/
theorem ctrc_accesses (h : SpecialAccess .word rs1 rs2 0x4A s) :
    let v := readReg rd s
    let badSelect := 2 ≤ (v.extractLsb' 24 8).toNat ∨ 2 ≤ (v.extractLsb' 8 8).toNat
    let cycleInt :=
      (CountsCycles (v.getLsbD 21) (v.extractLsb' 24 8) (v.getLsbD 23) (v.getLsbD 22) ∧ s.mon.action.getLsbD 2 = true) ∨
      (CountsCycles (v.getLsbD 5) (v.extractLsb' 8 8) (v.getLsbD 7) (v.getLsbD 6) ∧ s.mon.action.getLsbD 0 = true)
    (badSelect → exec (.sta rd rs1 false 0x4A rs2) s = .refused .counterSelect) ∧
    (¬ badSelect → cycleInt → exec (.sta rd rs1 false 0x4A rs2) s = .refused .cycleCounterInterrupt) ∧
    (¬ badSelect → ¬ cycleInt →
      WritesMonitor (.sta rd rs1 false 0x4A rs2) s { s.mon with ctrc := ctrcOfWord v }) := by
  intro v badSelect cycleInt
  have hs := storeCtrc_eq (rs1 := rs1) (rs2 := rs2) v s
  have hc : cycleInterrupt (ctrcOfWord v) s.mon.action = true ↔ cycleInt := cycleInterrupt_iff ..
  refine ⟨fun hb => ?_, fun hb hi => ?_, fun hb hi => ?_⟩
  · exact sta_refused h (hs.trans (if_pos hb))
  · exact sta_refused h (hs.trans ((if_neg hb).trans (if_pos (hc.mpr hi))))
  · exact sta_writes h (hs.trans ((if_neg hb).trans (if_neg (hc.not.mpr hi))))

/-- ACTION is read with zeros before its 13 bits, and takes what lets no cycle counter interrupt (R738, R820). -/
theorem action_accesses (h : SpecialAccess .dword rs1 rs2 0x4C s) (he : rd.getLsbD 0 = false) :
    let v := readReg (rd ||| 1) s
    let c := s.mon.ctrc
    let cycleInt :=
      (CountsCycles c.aen c.selA c.ua c.ka ∧ v.getLsbD 2 = true) ∨ (CountsCycles c.ben c.selB c.ub c.kb ∧ v.getLsbD 0 = true)
    LoadsLowWord (.ldda rd rs1 false 0x4C rs2) rd s (0#19 ++ s.mon.action) ∧
    (cycleInt → exec (.stda rd rs1 false 0x4C rs2) s = .refused .cycleCounterInterrupt) ∧
    (¬ cycleInt → WritesMonitor (.stda rd rs1 false 0x4C rs2) s
      { s.mon with action := v.extractLsb' 0 13, pendA := s.mon.pendA && v.getLsbD 2,
                   pendB := s.mon.pendB && v.getLsbD 0, pendC := s.mon.pendC && v.getLsbD 3,
                   pendD := s.mon.pendD && v.getLsbD 1 }) := by
  intro v c cycleInt
  have hl : loadAsi 0x4C .dword (altAddress rs1 rs2 s) s = .ok ((0#19 ++ s.mon.action : Word).setWidth 64) s := by
    rw [setWidth_zero_append 19 s.mon.action]
    rfl
  have hs := storeAction_eq (rs1 := rs1) (rs2 := rs2) (readReg rd s) v s
  have hc : cycleInterrupt s.mon.ctrc (v.extractLsb' 0 13) = true ↔ cycleInt := by
    rw [cycleInterrupt_iff, BitVec.getLsbD_extractLsb', BitVec.getLsbD_extractLsb']
    rfl
  exact ⟨ldda_reads h he hl, fun hi => stda_refused h he (hs.trans (if_pos (hc.mpr hi))),
    fun hi => stda_writes h he (hs.trans (if_neg (hc.not.mpr hi)))⟩

/-- BKV, BKM and BKC (R722, R723). -/
theorem breakpoint_accesses (h : SpecialAccess .dword rs1 rs2 0x38 s) (he : rd.getLsbD 0 = false) :
    let a := (altAddress rs1 rs2 s).toNat
    let v := readReg (rd ||| 1) s
    (a = 0x000 → LoadsLowWord (.ldda rd rs1 false 0x38 rs2) rd s s.mon.bkv ∧
      WritesMonitor (.stda rd rs1 false 0x38 rs2) s { s.mon with bkv := v }) ∧
    (a = 0x100 → LoadsLowWord (.ldda rd rs1 false 0x38 rs2) rd s s.mon.bkm ∧
      WritesMonitor (.stda rd rs1 false 0x38 rs2) s { s.mon with bkm := v }) ∧
    (a = 0x200 → LoadsLowWord (.ldda rd rs1 false 0x38 rs2) rd s (0#25 ++ s.mon.bkc) ∧
      (v.getLsbD 5 = true → exec (.stda rd rs1 false 0x38 rs2) s = .refused .physicalBreakpoint) ∧
      (v.getLsbD 5 = false →
        WritesMonitor (.stda rd rs1 false 0x38 rs2) s { s.mon with bkc := v.extractLsb' 0 7 })) ∧
    (a ∉ [0x000, 0x100, 0x200] → exec (.ldda rd rs1 false 0x38 rs2) s = .refused .asiRegister ∧
      exec (.stda rd rs1 false 0x38 rs2) s = .refused .asiRegister) := by
  intro a v
  obtain ⟨lv, lm, lc, lr⟩ := loadBreakpoint_eq (a := altAddress rs1 rs2 s) s
  obtain ⟨sv, sm, sc, sr⟩ := storeBreakpoint_eq (a := altAddress rs1 rs2 s) (readReg rd s) v s
  refine ⟨fun ha => ?_, fun ha => ?_, fun ha => ?_, fun ha => ?_⟩
  · exact ⟨ldda_reads h he (lv ha), stda_writes h he (sv ha)⟩
  · exact ⟨ldda_reads h he (lm ha), stda_writes h he (sm ha)⟩
  · exact ⟨ldda_reads h he (lc ha), fun hp => stda_refused h he ((sc ha).trans (if_pos hp)),
      fun hp => stda_writes h he ((sc ha).trans (if_neg (by rw [hp]; decide)))⟩
  · exact ⟨ldda_refused h he (lr ha), stda_refused h he (sr ha)⟩

end Registers

/-- Settles O50: each register, then the spaces the chip does not implement. -/
theorem monitorRegisters : Obligations.MonitorRegisters := by
  intro rd rs1 rs2 asi s hs
  refine ⟨fun ha => ?_, fun ha he => ?_, fun hn hb ha he i hi => ?_⟩
  · have word {asi : Asi} (h : 11 < asi.toNat) (hb : asi.extractLsb' 4 4 ≠ 2) : SpecialAccess .word rs1 rs2 asi s :=
      specialAccess_word hs ha (.inr h) hb
    have h40 : SpecialAccess .word rs1 rs2 0x40 s := word (by decide) (by decide)
    have h48 : SpecialAccess .word rs1 rs2 0x48 s := word (by decide) (by decide)
    have h49 : SpecialAccess .word rs1 rs2 0x49 s := word (by decide) (by decide)
    have h4A : SpecialAccess .word rs1 rs2 0x4A s := word (by decide) (by decide)
    have h4B : SpecialAccess .word rs1 rs2 0x4B s := word (by decide) (by decide)
    obtain ⟨kernel, counterA, counterB⟩ := storeMonitor_word (altAddress rs1 rs2 s) (readReg rd s) s
    refine ⟨sta_writes h40 kernel, lda_reads h40 rfl, ?_, ?_, lda_counter h48 (cyclesA_iff _) rfl,
      lda_counter h49 (cyclesB_iff _) rfl, ?_, ctrc_accesses rd h4A, lda_ctrs h4B, sta_refused h4B rfl⟩
    · obtain ⟨t, he, hadv, hf, hm, hw, -⟩ := sta_writes_marking h48 counterA
      exact ⟨t, he, hadv, hf, hm, hw⟩
    · obtain ⟨t, he, hadv, hf, hm, -, hw⟩ := sta_writes_marking h49 counterB
      exact ⟨t, he, hadv, hf, hm, hw⟩
    · obtain ⟨t, he, hadv, hv, hf⟩ := lda_reads (rd := rd) (w := ctrcWord s.mon.ctrc) h4A rfl
      exact ⟨t, he, hadv, hf, _, hv, ctrcWord_fields _⟩
  · have dword {asi : Asi} (h : 11 < asi.toNat) (hb : asi.extractLsb' 4 4 ≠ 2) : SpecialAccess .dword rs1 rs2 asi s :=
      specialAccess_dword hs ha (.inr h) hb
    obtain ⟨reads, refused, writes⟩ := action_accesses rd (dword (by decide) (by decide)) he
    exact ⟨reads, ⟨refused, writes⟩, breakpoint_accesses rd (dword (by decide) (by decide)) he⟩
  · have himp : asiImplemented asi = false := by
      rw [asiImplemented, List.contains_eq_mem, decide_eq_false_iff_not]
      exact fun h => hn ((by decide : ∀ n ∈ _, n ∈ _) _ h)
    have hsp : spaceOf asi = .special := spaceOf_special (by simp only [List.mem_cons] at hn; omega) hb
    simp only [List.mem_cons, List.not_mem_nil, or_false] at hi
    have load := loadReg_unimplemented (rd := rd) hs ha hsp himp
    have store := storeReg_unimplemented (rd := rd) hs ha hsp himp
    rcases hi with rfl | rfl | rfl | rfl | rfl | rfl | rfl | rfl | rfl | rfl | rfl | rfl
    · exact load .word lowWord
    · exact load .byte zeroByte
    · exact load .half zeroHalf
    · exact loadPair_unimplemented hs ha hsp himp he
    · exact load .byte signByte
    · exact load .half signHalf
    · exact store .word
    · exact store .byte
    · exact store .half
    · exact storePair_unimplemented hs ha hsp himp he
    · exact loadStoreByte_unimplemented hs ha hsp himp
    · exact swapReg_unimplemented hs ha hsp himp

end Sys2Proof.Machine
end

section
/-! The decoder and the encoder are inverse to each other (30_encoding.md, R230 to R251). -/

namespace Sys2Proof

/-! ## The fields of an encoded word, format by format -/

section Fields

variable (op : BitVec 2) (op2 : BitVec 3) (op3 : BitVec 6) (cond : BitVec 4) (rd rs1 rs2 : Reg)

@[simp] theorem fields_encImm22 (imm : BitVec 22) : let w := encImm22 op2 rd imm
    fieldOp w = 0 ∧ fieldOp2 w = op2 ∧ fieldRd w = rd ∧ fieldImm22 w = imm := by
  refine ⟨?_, ?_, ?_, ?_⟩ <;>
    simp (disch := decide) only [fieldOp, fieldOp2, fieldRd, fieldImm22, encImm22, BitVec.extractLsb'_append_eq_of_le,
      BitVec.extractLsb'_append_eq_of_add_le] <;> simp

@[simp] theorem fields_encBranch (a : Bool) (disp : BitVec 22) : let w := encBranch op2 cond a disp
    fieldOp w = 0 ∧ fieldOp2 w = op2 ∧ fieldCond w = cond ∧ fieldA w = a ∧ fieldDisp22 w = disp := by
  refine ⟨?_, ?_, ?_, ?_, ?_⟩ <;>
    simp (disch := decide) only [fieldOp, fieldOp2, fieldCond, fieldA, fieldDisp22, encBranch, BitVec.getLsbD_append,
      BitVec.extractLsb'_append_eq_of_le, BitVec.extractLsb'_append_eq_of_add_le] <;> simp

@[simp] theorem fields_encF3 (o : Opnd2) : let w := encF3 op op3 rd rs1 o
    fieldOp w = op ∧ fieldOp3 w = op3 ∧ fieldRd w = rd ∧ fieldRs1 w = rs1 ∧ fieldOpnd2 w = o := by
  cases o <;> refine ⟨?_, ?_, ?_, ?_, ?_⟩ <;>
    simp (disch := decide) only [fieldOp, fieldOp3, fieldRd, fieldRs1, fieldOpnd2, fieldI, fieldSimm13, fieldRs2, encF3,
      BitVec.getLsbD_append, BitVec.extractLsb'_append_eq_of_le, BitVec.extractLsb'_append_eq_of_add_le] <;> simp

@[simp] theorem fields_encShift (n : ShCount) : let w := encShift op3 rd rs1 n
    fieldOp w = 2 ∧ fieldOp3 w = op3 ∧ fieldRd w = rd ∧ fieldRs1 w = rs1 ∧ fieldShCount w = n := by
  cases n <;> refine ⟨?_, ?_, ?_, ?_, ?_⟩ <;>
    simp (disch := decide) only [fieldOp, fieldOp3, fieldRd, fieldRs1, fieldShCount, fieldI, fieldRs2, encShift,
      BitVec.getLsbD_append, BitVec.extractLsb'_append_eq_of_le, BitVec.extractLsb'_append_eq_of_add_le] <;> simp

@[simp] theorem fields_encTrap (n : TrapNum) : let w := encTrap cond rs1 n
    fieldOp w = 2 ∧ fieldOp3 w = 0x3A ∧ fieldCond w = cond ∧ fieldRs1 w = rs1 ∧ fieldTrapNum w = n := by
  cases n <;> refine ⟨?_, ?_, ?_, ?_, ?_⟩ <;>
    simp (disch := decide) only [fieldOp, fieldOp3, fieldCond, fieldRs1, fieldTrapNum, fieldI, fieldImm7, fieldRs2, encTrap,
      BitVec.getLsbD_append, BitVec.extractLsb'_append_eq_of_le, BitVec.extractLsb'_append_eq_of_add_le] <;> simp

@[simp] theorem fields_encFp (opf : BitVec 9) : let w := encFp op3 rd rs1 opf rs2
    fieldOp w = 2 ∧ fieldOp3 w = op3 ∧ fieldRd w = rd ∧ fieldRs1 w = rs1 ∧ fieldOpf w = opf ∧ fieldRs2 w = rs2 := by
  refine ⟨?_, ?_, ?_, ?_, ?_, ?_⟩ <;>
    simp (disch := decide) only [fieldOp, fieldOp3, fieldRd, fieldRs1, fieldOpf, fieldRs2, encFp,
      BitVec.extractLsb'_append_eq_of_le, BitVec.extractLsb'_append_eq_of_add_le] <;> simp

@[simp] theorem fields_encAlt (i : Bool) (asi : Asi) : let w := encAlt op3 rd rs1 i asi rs2
    fieldOp w = 3 ∧ fieldOp3 w = op3 ∧ fieldRd w = rd ∧ fieldRs1 w = rs1 ∧ fieldI w = i ∧ fieldAsi w = asi ∧
      fieldRs2 w = rs2 := by
  refine ⟨?_, ?_, ?_, ?_, ?_, ?_, ?_⟩ <;>
    simp (disch := decide) only [fieldOp, fieldOp3, fieldRd, fieldRs1, fieldI, fieldAsi, fieldRs2, encAlt,
      BitVec.getLsbD_append, BitVec.extractLsb'_append_eq_of_le, BitVec.extractLsb'_append_eq_of_add_le] <;> simp

@[simp] theorem fields_call (disp30 : BitVec 30) : let w : Word := 1#2 ++ disp30
    fieldOp w = 1 ∧ fieldDisp30 w = disp30 := by
  refine ⟨?_, ?_⟩ <;> simp (disch := decide) only [fieldOp, fieldDisp30, BitVec.extractLsb'_append_eq_of_le,
      BitVec.extractLsb'_append_eq_of_add_le] <;> simp

end Fields

/-! ## Which decoder reads a format -/

section Dispatch

variable (op3 : BitVec 6) (cond : BitVec 4) (rd rs1 rs2 : Reg) (a i : Bool) (disp : BitVec 22) (o : Opnd2) (n : ShCount)
  (t : TrapNum) (opf : BitVec 9) (asi : Asi)

theorem decodeFields_bicc : decodeFields (encBranch 2 cond a disp) = decodeBicc (encBranch 2 cond a disp) := by
  simp [decodeFields, decodeFormat2]

theorem decodeFields_fbfcc : decodeFields (encBranch 6 cond a disp) = decodeFBfcc (encBranch 6 cond a disp) := by
  simp [decodeFields, decodeFormat2]

theorem decodeFields_cbccc : decodeFields (encBranch 7 cond a disp) = decodeCBccc (encBranch 7 cond a disp) := by
  simp [decodeFields, decodeFormat2]

theorem decodeFields_encF3_arith : decodeFields (encF3 2 op3 rd rs1 o) = decodeArith (encF3 2 op3 rd rs1 o) := by
  simp [decodeFields]

theorem decodeFields_encShift : decodeFields (encShift op3 rd rs1 n) = decodeArith (encShift op3 rd rs1 n) := by
  simp [decodeFields]

theorem decodeFields_fpop1 : decodeFields (encFp 0x34 rd rs1 opf rs2) = decodeFPop1 (encFp 0x34 rd rs1 opf rs2) := by
  simp [decodeFields, decodeArith]

theorem decodeFields_fpop2 : decodeFields (encFp 0x35 rd rs1 opf rs2) = decodeFPop2 (encFp 0x35 rd rs1 opf rs2) := by
  simp [decodeFields, decodeArith]

theorem decodeFields_encTrap : decodeFields (encTrap cond rs1 t) = decodeTicc (encTrap cond rs1 t) := by
  simp [decodeFields, decodeArith]

theorem decodeFields_encF3_memory : decodeFields (encF3 3 op3 rd rs1 o) = decodeMemory (encF3 3 op3 rd rs1 o) := by
  simp [decodeFields]

theorem decodeFields_encAlt : decodeFields (encAlt op3 rd rs1 i asi rs2) = decodeMemory (encAlt op3 rd rs1 i asi rs2) := by
  simp [decodeFields]

theorem fieldCond_encBranch (op2 : BitVec 3) : fieldCond (encBranch op2 cond a disp) = cond := by simp
theorem fieldOp3_encF3 (op : BitVec 2) : fieldOp3 (encF3 op op3 rd rs1 o) = op3 := by simp
theorem fieldOp3_encShift : fieldOp3 (encShift op3 rd rs1 n) = op3 := by simp
theorem fieldCond_encTrap : fieldCond (encTrap cond rs1 t) = cond := by simp
theorem fieldOpf_encFp : fieldOpf (encFp op3 rd rs1 opf rs2) = opf := by simp
theorem fieldOp3_encAlt : fieldOp3 (encAlt op3 rd rs1 i asi rs2) = op3 := by simp

end Dispatch

/-! ## The checks of well-formedness -/

@[simp] theorem sethi_wellFormed_iff (rd : Reg) (imm22 : BitVec 22) :
    (Instr.sethi rd imm22).WellFormed ↔ ¬ (rd = 0 ∧ imm22 = 0) := by
  simp [← not_and_or, Instr.WellFormed, Instr.wellFormed]

@[simp] theorem rdasr_wellFormed_iff (d : DestOpnd) (rs1 : Reg) :
    (Instr.rdasr d rs1).WellFormed ↔ rs1 ≠ 0 ∧ ¬ (rs1 = 15 ∧ d.rd = 0) := by
  simp [← not_and_or, Instr.WellFormed, Instr.wellFormed]

@[simp] theorem wrasr_wellFormed_iff (rd rs1 : Reg) (o : Opnd2) : (Instr.wrasr rd rs1 o).WellFormed ↔ rd ≠ 0 := by
  simp [Instr.WellFormed, Instr.wellFormed]

@[simp] theorem fpop1Other_wellFormed_iff (rd rs1 : Reg) (opf : BitVec 9) (rs2 : Reg) :
    (Instr.fpop1Other rd rs1 opf rs2).WellFormed ↔ opf ∉ fpop1Allocated := by
  simp [Instr.WellFormed, Instr.wellFormed]

@[simp] theorem fpop2Other_wellFormed_iff (rd rs1 : Reg) (opf : BitVec 9) (rs2 : Reg) :
    (Instr.fpop2Other rd rs1 opf rs2).WellFormed ↔ opf ∉ fpop2Allocated := by
  simp [Instr.WellFormed, Instr.wellFormed]

/-! ## The words that two rows could share (R248, R613) -/

theorem decodeReadState_eq_rdasr_iff (w : Word) :
    decodeReadState w = .ok (.rdasr ⟨fieldRd w, fieldOpnd2 w⟩ (fieldRs1 w)) ↔
      fieldRs1 w ≠ 0 ∧ ¬ (fieldRs1 w = 15 ∧ fieldRd w = 0) := by
  unfold decodeReadState
  split
  next h => simp [h]
  next h =>
    split
    next h' => simp [h']
    next h' => exact iff_of_true rfl ⟨h, h'⟩

theorem decodeWriteState_eq_wrasr_iff (w : Word) :
    decodeWriteState w = .ok (.wrasr (fieldRd w) (fieldRs1 w) (fieldOpnd2 w)) ↔ fieldRd w ≠ 0 := by
  unfold decodeWriteState
  split
  next h => simp [h]
  next h => exact iff_of_true rfl h

/-- The last arm of the FPop1 decoder is for exactly the `opf` values without a row of their own (R242, R613): each other
arm is for one value of the list and answers that value's row. -/
theorem decodeFPop1_eq_other_iff (w : Word) :
    decodeFPop1 w = .ok (.fpop1Other (fieldRd w) (fieldRs1 w) (fieldOpf w) (fieldRs2 w)) ↔ fieldOpf w ∉ fpop1Allocated := by
  simp only [fpop1Allocated, List.mem_cons, List.not_mem_nil, ← BitVec.toNat_inj]
  unfold decodeFPop1
  split <;> simp_all

/-- FPop2 likewise. -/
theorem decodeFPop2_eq_other_iff (w : Word) :
    decodeFPop2 w = .ok (.fpop2Other (fieldRd w) (fieldRs1 w) (fieldOpf w) (fieldRs2 w)) ↔ fieldOpf w ∉ fpop2Allocated := by
  simp only [fpop2Allocated, List.mem_cons, List.not_mem_nil, ← BitVec.toNat_inj]
  unfold decodeFPop2
  split <;> simp_all

/-! ## The round trip -/

/-- An arm `e` of the decoder that answers `j` meets the row of `i`, one that no check of well-formedness speaks of. -/
theorem eq_ok_iff_wellFormed_of_arm {e : Except DecodeError Instr} {i j : Instr} (he : e = .ok j) (hj : j = i)
    (hi : i.WellFormed) : e = .ok i ↔ i.WellFormed :=
  iff_of_true (he.trans (congrArg _ hj)) hi

/-- The word of an instruction names that instruction by its defining fields exactly when the instruction is well-formed. A
row that no check speaks of is read by the arm of its own code, which takes its operands from the fields the encoder put them
in; in the five rows with a check, what the check refuses is the word of another row (R248). -/
theorem decodeFields_encode_iff (i : Instr) : decodeFields (encode i) = .ok i ↔ i.WellFormed := by
  cases i with
  | unimp => simp [encode, decodeFields, decodeFormat2, Instr.WellFormed, Instr.wellFormed]
  | nop => decide
  | sethi => simp [encode, decodeFields, decodeFormat2]
  | call => simp [encode, decodeFields, Instr.WellFormed, Instr.wellFormed]
  | bn | be | ble | bl | bleu | bcs | bneg | bvs | ba | bne | bg | bge | bgu | bcc | bpos | bvc =>
    rw [encode, decodeFields_bicc, decodeBicc, fieldCond_encBranch]
    exact eq_ok_iff_wellFormed_of_arm rfl (by simp) rfl
  | fbn | fbne | fblg | fbul | fbl | fbug | fbg | fbu | fba | fbe | fbue | fbge | fbuge | fble | fbule | fbo =>
    rw [encode, decodeFields_fbfcc, decodeFBfcc, fieldCond_encBranch]
    exact eq_ok_iff_wellFormed_of_arm rfl (by simp) rfl
  | cbn | cb123 | cb12 | cb13 | cb1 | cb23 | cb2 | cb3 | cba | cb0 | cb03 | cb02 | cb023 | cb01 | cb013 | cb012 =>
    rw [encode, decodeFields_cbccc, decodeCBccc, fieldCond_encBranch]
    exact eq_ok_iff_wellFormed_of_arm rfl (by simp) rfl
  | add | and | or | xor | sub | andn | orn | xnor | addx | umul | smul | subx | udiv | sdiv | addcc | andcc | orcc
    | xorcc | subcc | andncc | orncc | xnorcc | addxcc | umulcc | smulcc | subxcc | udivcc | sdivcc | taddcc | tsubcc
    | taddcctv | tsubcctv | mulscc | rdpsr | rdwim | rdtbr | wrpsr | wrwim | wrtbr | jmpl | rett | flush | save | restore =>
    rw [encode, decodeFields_encF3_arith, decodeArith, fieldOp3_encF3]
    exact eq_ok_iff_wellFormed_of_arm rfl (by simp) rfl
  | sll | srl | sra =>
    rw [encode, decodeFields_encShift, decodeArith, fieldOp3_encShift]
    exact eq_ok_iff_wellFormed_of_arm rfl (by simp) rfl
  | fmovs | fnegs | fabss | fsqrts | fsqrtd | fadds | faddd | fsubs | fsubd | fmuls | fmuld | fdivs | fdivd | fsmuld
    | fitos | fdtos | fitod | fstod | fstoi | fdtoi | fsqrtq | faddq | fsubq | fmulq | fdivq | fdmulq | fqtos | fqtod
    | fitoq | fstoq | fdtoq | fqtoi =>
    rw [encode, decodeFields_fpop1, decodeFPop1, fieldOpf_encFp]
    exact eq_ok_iff_wellFormed_of_arm rfl (by simp) rfl
  | fcmps | fcmpd | fcmpes | fcmped | fcmpq | fcmpeq =>
    rw [encode, decodeFields_fpop2, decodeFPop2, fieldOpf_encFp]
    exact eq_ok_iff_wellFormed_of_arm rfl (by simp) rfl
  | cpop1 | cpop2 => simp [encode, decodeFields, decodeArith, Instr.WellFormed, Instr.wellFormed]
  | tn | te | tle | tl | tleu | tcs | tneg | tvs | ta | tne | tg | tge | tgu | tcc | tpos | tvc =>
    rw [encode, decodeFields_encTrap, decodeTicc, fieldCond_encTrap]
    exact eq_ok_iff_wellFormed_of_arm rfl (by simp) rfl
  | ld | ldub | lduh | ldd | st | stb | sth | std | ldsb | ldsh | ldstub | swap | ldf | ldfsr | lddf | stf | stfsr
    | stdfq | stdf | ldc | ldcsr | lddc | stc | stcsr | stdcq | stdc =>
    rw [encode, decodeFields_encF3_memory, decodeMemory, fieldOp3_encF3]
    exact eq_ok_iff_wellFormed_of_arm rfl (by simp) rfl
  | lda | lduba | lduha | ldda | sta | stba | stha | stda | ldsba | ldsha | ldstuba | swapa =>
    rw [encode, decodeFields_encAlt, decodeMemory, fieldOp3_encAlt]
    exact eq_ok_iff_wellFormed_of_arm rfl (by simp) rfl
  | rdy | stbar => simp [encode, decodeFields, decodeArith, decodeReadState, Instr.WellFormed, Instr.wellFormed]
  | wry => simp [encode, decodeFields, decodeArith, decodeWriteState, Instr.WellFormed, Instr.wellFormed]
  | rdasr d rs1 => simpa [encode, decodeFields, decodeArith] using decodeReadState_eq_rdasr_iff (encode (.rdasr d rs1))
  | wrasr rd rs1 o => simpa [encode, decodeFields, decodeArith] using decodeWriteState_eq_wrasr_iff (encode (.wrasr rd rs1 o))
  | fpop1Other rd rs1 opf rs2 =>
    simpa [encode, decodeFields, decodeArith] using decodeFPop1_eq_other_iff (encode (.fpop1Other rd rs1 opf rs2))
  | fpop2Other rd rs1 opf rs2 =>
    simpa [encode, decodeFields, decodeArith] using decodeFPop2_eq_other_iff (encode (.fpop2Other rd rs1 opf rs2))

/-- A word decodes to the well-formed instruction that it encodes, and to no other. -/
theorem decodeWord_eq_ok_iff (w : Word) (i : Instr) : decodeWord w = .ok i ↔ encode i = w ∧ i.WellFormed := by
  rw [← decodeFields_encode_iff]
  constructor
  · intro h
    unfold decodeWord at h
    split at h
    next j hj =>
      split at h
      next hw => cases h; exact ⟨hw, hw ▸ hj⟩
      next => cases h
    next => cases h
  · rintro ⟨rfl, h⟩
    simp [decodeWord, h]

/-! ## Bytes -/

theorem wordOfBytes_extractLsb' (w : Word) :
    wordOfBytes (w.extractLsb' 24 8) (w.extractLsb' 16 8) (w.extractLsb' 8 8) (w.extractLsb' 0 8) = w := by
  simp (disch := decide) only [wordOfBytes, BitVec.extractLsb'_append_extractLsb'_eq_extractLsb']
  exact BitVec.extractLsb'_eq_self

theorem decode_bytesOfWord_append (w : Word) (rest : List Byte) :
    decode (bytesOfWord w ++ rest) = (decodeWord w).map (·, rest) := by
  simp only [bytesOfWord, List.cons_append, List.nil_append, decode, wordOfBytes_extractLsb']
  cases decodeWord w <;> rfl

/-! ## The obligations -/

/-- Settles O2: the bytes give the word back, and the word the instruction. -/
theorem decodeEncodeRoundTrip : Obligations.DecodeEncodeRoundTrip := by
  intro i rest hi
  have hd : decodeWord (encode i) = .ok i := (decodeWord_eq_ok_iff _ i).mpr ⟨rfl, hi⟩
  rw [decode_bytesOfWord_append, hd]
  rfl

/-- Settles O3, the other direction of the same equivalence. -/
theorem decodedIsWellFormed : Obligations.DecodedIsWellFormed := fun w i => (decodeWord_eq_ok_iff w i).mp

/-- Settles O1: each word is the encoding of its instruction. -/
theorem knownWordsDecode : Obligations.KnownWordsDecode := by
  simp only [Obligations.KnownWordsDecode, decodeWord_eq_ok_iff]
  decide

end Sys2Proof
end

section
/-! How an integer instruction that completes leaves the machine: its result, its codes and Y, and nothing else (R280). -/

namespace Sys2Proof.Spec

open Sys2Proof.Machine

/-! ## Frames -/

theorem Frame.setIcc {w : Writes} {s u : State} (h : Frame w s u) (hw : w.icc = true) (c : Icc) :
    Frame w s (Machine.setIcc c u) :=
  { h with icc := fun e => absurd (hw.symm.trans e) (by decide) }

theorem Frame.setY {w : Writes} {s u : State} (h : Frame w s u) (hw : w.y = true) (y : Word) :
    Frame w s { u with y := y } :=
  { h with y := fun e => absurd (hw.symm.trans e) (by decide) }

/-- The frame of a write of `x[rd]`, whatever else may be written. -/
theorem frame_writeReg {w : Writes} {s : State} {rd : Reg} (hw : slot s.psr.cwp rd ∈ w.slots) (r : Word) :
    Frame w s (writeReg rd r s) :=
  (Frame.refl w s).writeReg hw r

theorem Completes.imp {i : Instr} {s : State} {P Q : State → Prop} (h : Completes i s P) (hpq : ∀ t, P t → Q t) :
    Completes i s Q :=
  let ⟨t, ht, hp⟩ := h
  ⟨t, ht, hpq t hp⟩

/-! ## The shapes in which integer instructions complete -/

section Shapes

variable {i : Instr} {rd : Reg} {r y : Word} {v c : Bool} {s : State}

theorem advanced_advance_writeReg : Advanced s (advance (writeReg rd r s)) := ⟨writeReg_npc .., by simp⟩

theorem completes_result (h : exec i s = .next (advance (writeReg rd r s))) :
    Completes i s fun t => Advanced s t ∧ Holds rd r t ∧ Frame { slots := [slot s.psr.cwp rd] } s t :=
  ⟨_, h, advanced_advance_writeReg, holds_advance_writeReg rd r s, (frame_writeReg (by simp) r).advance⟩

theorem completes_resultY (h : exec i s = .next (advance { writeReg rd r s with y := y })) :
    Completes i s fun t => Advanced s t ∧ Holds rd r t ∧ t.y = y ∧
      Frame { slots := [slot s.psr.cwp rd], y := true } s t :=
  ⟨_, h, advanced_advance_writeReg, holds_advance_writeReg rd r s, rfl, ((frame_writeReg (by simp) r).setY rfl y).advance⟩

/-- With the codes: N and Z are those of the result. -/
theorem completes_resultIcc (h : exec i s = .next (advance (setIcc ⟨r.msb, r == 0, v, c⟩ (writeReg rd r s)))) :
    Completes i s fun t => Advanced s t ∧ Holds rd r t ∧ t.psr.n = r.getLsbD 31 ∧ (t.psr.z = true ↔ r = 0) ∧
      t.psr.v = v ∧ t.psr.c = c ∧ Frame { slots := [slot s.psr.cwp rd], icc := true } s t :=
  ⟨_, h, advanced_advance_writeReg, holds_advance_writeReg rd r s, BitVec.msb_eq_getLsbD_last r, beq_iff_eq, rfl, rfl,
    ((frame_writeReg (by simp) r).setIcc rfl _).advance⟩

theorem completes_resultIccY
    (h : exec i s = .next (advance { setIcc ⟨r.msb, r == 0, v, c⟩ (writeReg rd r s) with y := y })) :
    Completes i s fun t => Advanced s t ∧ Holds rd r t ∧ t.y = y ∧ t.psr.n = r.getLsbD 31 ∧ (t.psr.z = true ↔ r = 0) ∧
      t.psr.v = v ∧ t.psr.c = c ∧ Frame { slots := [slot s.psr.cwp rd], icc := true, y := true } s t :=
  ⟨_, h, advanced_advance_writeReg, holds_advance_writeReg rd r s, rfl, BitVec.msb_eq_getLsbD_last r, beq_iff_eq, rfl, rfl,
    (((frame_writeReg (by simp) r).setIcc rfl _).setY rfl y).advance⟩

/-- With V as a proposition. -/
theorem completes_resultIcc_iff {V : Prop} (hv : v = true ↔ V)
    (h : exec i s = .next (advance (setIcc ⟨r.msb, r == 0, v, c⟩ (writeReg rd r s)))) :
    Completes i s fun t => Advanced s t ∧ Holds rd r t ∧ t.psr.n = r.getLsbD 31 ∧ (t.psr.z = true ↔ r = 0) ∧
      (t.psr.v = true ↔ V) ∧ t.psr.c = c ∧ Frame { slots := [slot s.psr.cwp rd], icc := true } s t :=
  (completes_resultIcc h).imp fun _ ⟨ha, hr, hn, hz, hvt, hc, hf⟩ => ⟨ha, hr, hn, hz, hvt ▸ hv, hc, hf⟩

end Shapes

end Sys2Proof.Spec
end

section
/-! Words as numbers: two words side by side, and carry and overflow (R43). -/

namespace Sys2Proof.Machine

/-- The number of two words side by side. -/
theorem toNat_append_eq {n m : Nat} (x : BitVec n) (y : BitVec m) : (x ++ y).toNat = x.toNat * 2 ^ m + y.toNat := by
  rw [BitVec.toNat_append, ← Nat.shiftLeft_add_eq_or_of_lt y.isLt, Nat.shiftLeft_eq]

theorem carryIn_eq (s : State) : carryIn s = if s.psr.c then 1 else 0 := by
  rw [carryIn]; cases s.psr.c <;> rfl

/-- The carry as a number. -/
theorem carryIn_eq_ofNat (s : State) : carryIn s = BitVec.ofNat 32 (if s.psr.c then 1 else 0) := by
  rw [carryIn]; cases s.psr.c <;> rfl

theorem toNat_add_carry (a b : Word) (k : Nat) : (a + b + BitVec.ofNat 32 k).toNat = (a.toNat + b.toNat + k) % 2 ^ 32 := by
  simp only [BitVec.toNat_add, BitVec.toNat_ofNat]; omega

section Codes

variable {a b r : Word} {k : Nat} (hk : k ≤ 1)
include hk

theorem toNat_sub_borrow : (a - b - BitVec.ofNat 32 k).toNat = (2 ^ 33 + a.toNat - b.toNat - k) % 2 ^ 32 := by
  have := b.isLt
  simp only [BitVec.toNat_sub, BitVec.toNat_ofNat]; omega

/-- C of an addition: the unsigned sum does not fit. -/
theorem addCarry_eq (hr : r = a + b + BitVec.ofNat 32 k) : addCarry a b r = decide (2 ^ 32 ≤ a.toNat + b.toNat + k) := by
  have := toNat_add_carry a b k
  have := a.isLt
  have := b.isLt
  subst hr
  rw [Bool.eq_iff_iff]
  simp only [addCarry, BitVec.msb_eq_decide, Bool.or_eq_true, Bool.and_eq_true, Bool.not_eq_true', decide_eq_true_eq,
    decide_eq_false_iff_not]
  omega

/-- C of a subtraction: it borrows. -/
theorem subCarry_eq (hr : r = a - b - BitVec.ofNat 32 k) : subCarry a b r = decide (a.toNat < b.toNat + k) := by
  have := toNat_sub_borrow (a := a) (b := b) hk
  have := a.isLt
  have := b.isLt
  subst hr
  rw [Bool.eq_iff_iff]
  simp only [subCarry, BitVec.msb_eq_decide, Bool.or_eq_true, Bool.and_eq_true, Bool.not_eq_true', decide_eq_true_eq,
    decide_eq_false_iff_not]
  omega

/-- V of an addition: the signed sum does not fit. -/
theorem addOverflow_iff (hr : r = a + b + BitVec.ofNat 32 k) : addOverflow a b r = true ↔
    a.toInt + b.toInt + k < -2 ^ 31 ∨ 2 ^ 31 ≤ a.toInt + b.toInt + k := by
  have := toNat_add_carry a b k
  have := a.isLt
  have := b.isLt
  subst hr
  simp only [addOverflow, BitVec.toInt_eq_toNat_cond, BitVec.msb_eq_decide, Bool.or_eq_true, Bool.and_eq_true,
    Bool.not_eq_true', decide_eq_true_eq, decide_eq_false_iff_not]
  omega

/-- V of a subtraction: the signed difference does not fit. -/
theorem subOverflow_iff (hr : r = a - b - BitVec.ofNat 32 k) : subOverflow a b r = true ↔
    a.toInt - b.toInt - k < -2 ^ 31 ∨ 2 ^ 31 ≤ a.toInt - b.toInt - k := by
  have := toNat_sub_borrow (a := a) (b := b) hk
  have := a.isLt
  have := b.isLt
  subst hr
  simp only [subOverflow, BitVec.toInt_eq_toNat_cond, BitVec.msb_eq_decide, Bool.or_eq_true, Bool.and_eq_true,
    Bool.not_eq_true', decide_eq_true_eq, decide_eq_false_iff_not]
  omega

end Codes

/-- A tag bit of an operand is set (R307). -/
theorem tagged_iff (a b : Word) : tagged a b = true ↔ a.toNat % 4 ≠ 0 ∨ b.toNat % 4 ≠ 0 := by
  simp only [tagged, Bool.or_eq_true, bne_iff_ne, ne_eq]
  exact or_congr (not_congr (alignedWord_iff a)) (not_congr (alignedWord_iff b))

end Sys2Proof.Machine
end

section
/-! Integer addition, subtraction, logic, shifts and tagged arithmetic (40_integer_arithmetic.md, R281 to R310). -/

namespace Sys2Proof.Machine

open Sys2Proof.Spec

/-! ## Addition and subtraction with codes -/

section Codes

variable {i : Instr} {rd : Reg} {a b r : Word} {k : Nat} {s : State} (hk : k ≤ 1)
include hk

/-- An addition that sets the codes, with `k` carried in. -/
theorem completes_addIcc (hr : r = a + b + BitVec.ofNat 32 k)
    (h : exec i s = .next (advance (setIcc (addIcc a b r) (writeReg rd r s)))) : Completes i s fun t =>
      Advanced s t ∧ Holds rd r t ∧ t.psr.n = r.getLsbD 31 ∧ (t.psr.z = true ↔ r = 0) ∧
      (t.psr.c = true ↔ 2 ^ 32 ≤ a.toNat + b.toNat + k) ∧
      (t.psr.v = true ↔ a.toInt + b.toInt + k < -2 ^ 31 ∨ 2 ^ 31 ≤ a.toInt + b.toInt + k) ∧
      Frame { slots := [slot s.psr.cwp rd], icc := true } s t :=
  (completes_resultIcc h).imp fun _ ⟨ha, hh, hn, hz, hv, hc, hf⟩ =>
    ⟨ha, hh, hn, hz, by rw [hc, addCarry_eq hk hr, decide_eq_true_iff], by rw [hv, addOverflow_iff hk hr], hf⟩

/-- A subtraction that sets the codes, with `k` borrowed. -/
theorem completes_subIcc (hr : r = a - b - BitVec.ofNat 32 k)
    (h : exec i s = .next (advance (setIcc (subIcc a b r) (writeReg rd r s)))) : Completes i s fun t =>
      Advanced s t ∧ Holds rd r t ∧ t.psr.n = r.getLsbD 31 ∧ (t.psr.z = true ↔ r = 0) ∧
      (t.psr.c = true ↔ a.toNat < b.toNat + k) ∧
      (t.psr.v = true ↔ a.toInt - b.toInt - k < -2 ^ 31 ∨ 2 ^ 31 ≤ a.toInt - b.toInt - k) ∧
      Frame { slots := [slot s.psr.cwp rd], icc := true } s t :=
  (completes_resultIcc h).imp fun _ ⟨ha, hh, hn, hz, hv, hc, hf⟩ =>
    ⟨ha, hh, hn, hz, by rw [hc, subCarry_eq hk hr, decide_eq_true_iff], by rw [hv, subOverflow_iff hk hr], hf⟩

end Codes

theorem carry_le_one (c : Bool) : (if c then 1 else 0) ≤ 1 := by cases c <;> decide

/-- Settles O11: ADDcc carries 0 in, ADDXcc the carry bit. -/
theorem addSetsCodes : Obligations.AddSetsCodes := by
  intro rd rs1 o s a b p hp
  simp only [List.mem_cons, List.not_mem_nil, or_false] at hp
  obtain rfl | rfl := hp
  · exact completes_addIcc (Nat.zero_le 1) rfl (by rw [BitVec.add_zero]; rfl)
  · exact completes_addIcc (carry_le_one s.psr.c) rfl (by rw [← carryIn_eq_ofNat]; rfl)

/-- Settles O12: SUBcc borrows 0, SUBXcc the carry bit. -/
theorem subSetsCodes : Obligations.SubSetsCodes := by
  intro rd rs1 o s a b p hp
  simp only [List.mem_cons, List.not_mem_nil, or_false] at hp
  obtain rfl | rfl := hp
  · exact completes_subIcc (Nat.zero_le 1) rfl (by rw [BitVec.sub_zero]; rfl)
  · exact completes_subIcc (carry_le_one s.psr.c) rfl (by rw [← carryIn_eq_ofNat]; rfl)

/-! ## Arithmetic without codes, and logic -/

/-- Settles O10: each of the ten instructions is a write of its result. -/
theorem plainAluResults : Obligations.PlainAluResults := by
  intro rd rs1 o s a b c p hp
  have hc : c = carryIn s := (carryIn_eq s).symm
  simp only [List.mem_cons, List.not_mem_nil, or_false, hc] at hp
  obtain rfl | rfl | rfl | rfl | rfl | rfl | rfl | rfl | rfl | rfl := hp
  all_goals exact completes_result rfl

/-- Settles O13: the codes of a logical result have V and C 0. -/
theorem logicSetsCodes : Obligations.LogicSetsCodes := by
  intro rd rs1 o s a b p hp
  simp only [List.mem_cons, List.not_mem_nil, or_false] at hp
  obtain rfl | rfl | rfl | rfl | rfl | rfl := hp
  all_goals exact completes_resultIcc rfl

/-! ## Shifts -/

/-- The count in a register is its low five bits. -/
theorem shiftCount_reg (rs2 : Reg) (s : State) : shiftCount (.reg rs2) s = (readReg rs2 s).toNat % 32 :=
  BitVec.extractLsb'_toNat 0 5 (readReg rs2 s)

theorem eq_shiftLeft_of_toNat {a r : Word} {k : Nat} (h : r.toNat = a.toNat * 2 ^ k % 2 ^ 32) : r = a <<< k :=
  BitVec.eq_of_toNat_eq (by rw [h, BitVec.toNat_shiftLeft, Nat.shiftLeft_eq])

theorem eq_ushiftRight_of_toNat {a r : Word} {k : Nat} (h : r.toNat = a.toNat / 2 ^ k) : r = a >>> k :=
  BitVec.eq_of_toNat_eq (by rw [h, BitVec.toNat_ushiftRight, Nat.shiftRight_eq_div_pow])

theorem eq_sshiftRight_of_toInt {a r : Word} {k : Nat} (h : r.toInt = a.toInt / 2 ^ k) : r = a.sshiftRight k :=
  BitVec.eq_of_toInt_eq (by rw [h, BitVec.toInt_sshiftRight, Int.shiftRight_eq_div_pow]; norm_cast)

/-- Settles O14: the number determines the word that the shift writes. -/
theorem shiftResults : Obligations.ShiftResults := by
  intro rd rs1 n s a k
  have hk : shiftCount n s = k := by
    cases n with
    | reg rs2 => exact shiftCount_reg rs2 s
    | cnt shcnt => rfl
  refine ⟨fun r hr => ?_, fun r hr => ?_, fun r hr => ?_⟩ <;> apply completes_result
  · rw [eq_shiftLeft_of_toNat hr, ← hk]; rfl
  · rw [eq_ushiftRight_of_toNat hr, ← hk]; rfl
  · rw [eq_sshiftRight_of_toInt hr, ← hk]; rfl

/-! ## SETHI and NOP -/

/-- Settles O15: the immediate with ten zeros below it is 1024 times the immediate. -/
theorem sethiAndNop : Obligations.SethiAndNop := by
  intro rd imm22 s
  have himm (v : Word) (hv : v.toNat = imm22.toNat * 1024) : v = imm22 ++ 0#10 :=
    BitVec.eq_of_toNat_eq (by rw [hv, toNat_append_eq, BitVec.toNat_ofNat]; omega)
  have hsethi : Completes (.sethi rd imm22) s _ := completes_result rfl
  refine ⟨hsethi.imp fun t ⟨ha, hh, hf⟩ => ⟨ha, fun v hv => himm v hv ▸ hh, hf⟩, ?_, ?_, rfl, rfl⟩
  · exact ⟨_, rfl, ⟨rfl, rfl⟩, (Frame.refl {} s).advance⟩
  · exact congrArg (fun u => Host.Outcome.next (advance u)) (writeReg_zero _ s)

/-! ## Tagged arithmetic -/

/-- The trapping form of a tagged operation completes as the plain form does where V is 0 (R309). -/
theorem aluTrap_of_not_v {f : Word → Word → Word} {icc : Word → Word → Word → Icc} {rs1 : Reg} {o : Opnd2} {s : State}
    (h : (icc (readReg rs1 s) (opnd2 o s) (f (readReg rs1 s) (opnd2 o s))).v = false) (rd : Reg) :
    aluTrap f icc rd rs1 o s = aluCc f icc rd rs1 o s := by
  simp only [aluTrap, aluCc, h, Bool.false_eq_true, if_false]

/-- Where V would be 1 it traps and writes nothing. -/
theorem aluTrap_of_v {f : Word → Word → Word} {icc : Word → Word → Word → Icc} {rs1 : Reg} {o : Opnd2} {s : State}
    (h : (icc (readReg rs1 s) (opnd2 o s) (f (readReg rs1 s) (opnd2 o s))).v = true) (rd : Reg) :
    aluTrap f icc rd rs1 o s = .next (takeTrap ttTagOverflow s) := by
  simp only [aluTrap, h, if_true]

/-- A tagged operation in its plain form `i` and its trapping form `j`: V is `v`, which says `V`, and C is `c`. -/
theorem tagged_outcomes {i j : Instr} {f : Word → Word → Word} {icc : Word → Word → Word → Icc} {rd rs1 : Reg} {o : Opnd2}
    {s : State} {r : Word} {v c : Bool} {V : Prop} (hi : exec i s = aluCc f icc rd rs1 o s)
    (hj : exec j s = aluTrap f icc rd rs1 o s) (hr : f (readReg rs1 s) (opnd2 o s) = r)
    (hicc : icc (readReg rs1 s) (opnd2 o s) r = ⟨r.msb, r == 0, v, c⟩) (hv : v = true ↔ V) :
    let ok (i : Instr) := Completes i s fun t =>
      Advanced s t ∧ Holds rd r t ∧ t.psr.n = r.getLsbD 31 ∧ (t.psr.z = true ↔ r = 0) ∧ (t.psr.v = true ↔ V) ∧
      t.psr.c = c ∧ Frame { slots := [slot s.psr.cwp rd], icc := true } s t
    ok i ∧ (¬ V → ok j) ∧ (V → Traps j 0x0A s) := by
  have hcc : aluCc f icc rd rs1 o s = .next (advance (setIcc ⟨r.msb, r == 0, v, c⟩ (writeReg rd r s))) := by
    rw [← hicc, ← hr]; rfl
  have hvf : (icc (readReg rs1 s) (opnd2 o s) (f (readReg rs1 s) (opnd2 o s))).v = v := by rw [hr, hicc]
  refine ⟨completes_resultIcc_iff hv (hi.trans hcc), fun h => completes_resultIcc_iff hv (hj.trans ?_), fun h => hj.trans ?_⟩
  · rw [aluTrap_of_not_v (hvf.trans (by simpa [h] using hv)), hcc]
  · exact aluTrap_of_v (hvf.trans (hv.mpr h)) rd

/-- Settles O16: V of the tagged codes is the overflow or a tag bit. -/
theorem taggedArithmetic : Obligations.TaggedArithmetic := by
  intro rd rs1 o s a b p hp
  simp only [List.mem_cons, List.not_mem_nil, or_false] at hp
  obtain rfl | rfl := hp
  · have hr : a + b = a + b + BitVec.ofNat 32 0 := (BitVec.add_zero _).symm
    refine tagged_outcomes (i := .taddcc rd rs1 o) (j := .taddcctv rd rs1 o) (v := addOverflow a b (a + b) || tagged a b)
      rfl rfl rfl ?_ ?_
    · exact congrArg (Icc.mk _ _ _) (addCarry_eq (Nat.zero_le 1) hr)
    · rw [Bool.or_eq_true, addOverflow_iff (Nat.zero_le 1) hr, tagged_iff, Nat.cast_zero, add_zero]
  · have hr : a - b = a - b - BitVec.ofNat 32 0 := (BitVec.sub_zero _).symm
    refine tagged_outcomes (i := .tsubcc rd rs1 o) (j := .tsubcctv rd rs1 o) (v := subOverflow a b (a - b) || tagged a b)
      rfl rfl rfl ?_ ?_
    · exact congrArg (Icc.mk _ _ _) (subCarry_eq (Nat.zero_le 1) hr)
    · rw [Bool.or_eq_true, subOverflow_iff (Nat.zero_le 1) hr, tagged_iff, Nat.cast_zero, sub_zero]

end Sys2Proof.Machine
end

section
/-! The multiply step and the multiplies (40_integer_arithmetic.md, R311 to R318). -/

namespace Sys2Proof.Machine

open Sys2Proof.Spec

/-! ## The operands of the step -/

/-- A word shifted right one bit, with `c` entering at the top. -/
theorem toNat_shiftIn (c : Bool) (w : Word) :
    (BitVec.ofBool c ++ w.extractLsb' 1 31 : Word).toNat = w.toNat / 2 + c.toNat * 2 ^ 31 := by
  have := w.isLt
  rw [toNat_append_eq, BitVec.extractLsb'_toNat, Nat.shiftRight_eq_div_pow, BitVec.toNat_ofBool]
  omega

theorem getLsbD_zero_eq (w : Word) : w.getLsbD 0 = decide (w.toNat % 2 = 1) := Nat.testBit_zero w.toNat

/-- Settles O17: the two operands of the rule are those of the model, and the codes are those of their sum. -/
theorem multiplyStep : Obligations.MultiplyStep := by
  intro rd rs1 o s op1 a op2 hop1
  have h1 : (BitVec.ofBool (s.psr.n != s.psr.v) ++ a.extractLsb' 1 31 : Word) = op1 :=
    BitVec.eq_of_toNat_eq (by rw [toNat_shiftIn, hop1]; cases s.psr.n <;> cases s.psr.v <;> rfl)
  have h2 : (if s.y.getLsbD 0 then opnd2 o s else 0) = op2 := by simp only [getLsbD_zero_eq, decide_eq_true_eq, op2]
  have hy : (BitVec.ofBool (a.getLsbD 0) ++ s.y.extractLsb' 1 31 : Word).toNat =
      s.y.toNat / 2 + a.toNat % 2 * 2 ^ 31 := by
    rw [toNat_shiftIn, getLsbD_zero_eq]
    rcases Nat.mod_two_eq_zero_or_one a.toNat with h | h <;> simp [h]
  have hx : exec (.mulscc rd rs1 o) s = .next (advance
      { setIcc (addIcc op1 op2 (op1 + op2)) (writeReg rd (op1 + op2) s) with
        y := BitVec.ofBool (a.getLsbD 0) ++ s.y.extractLsb' 1 31 }) := by
    rw [← h1, ← h2]; rfl
  have hr : op1 + op2 = op1 + op2 + BitVec.ofNat 32 0 := (BitVec.add_zero _).symm
  refine (completes_resultIccY hx).imp fun t ⟨hadv, hh, hty, hn, hz, hv, hc, hf⟩ =>
    ⟨hadv, hh, hty ▸ hy, hn, hz, ?_, ?_, hf⟩
  · rw [hc, addCarry_eq (Nat.zero_le 1) hr, decide_eq_true_iff, Nat.add_zero]
  · rw [hv, addOverflow_iff (Nat.zero_le 1) hr, Nat.cast_zero, add_zero]

/-! ## Products -/

theorem productU_toNat (a b : Word) : (productU a b).toNat = a.toNat * b.toNat := by
  have : a.toNat * b.toNat < 2 ^ 32 * 2 ^ 32 := Nat.mul_lt_mul'' a.isLt b.isLt
  have := a.isLt
  have := b.isLt
  rw [productU, BitVec.toNat_mul, BitVec.toNat_setWidth, BitVec.toNat_setWidth, Nat.mod_eq_of_lt (a := a.toNat) (by omega),
    Nat.mod_eq_of_lt (a := b.toNat) (by omega), Nat.mod_eq_of_lt (by omega)]

theorem productS_toInt (a b : Word) : (productS a b).toInt = a.toInt * b.toInt := by
  have hle : a.toInt * b.toInt ≤ 2 ^ 62 := BitVec.toInt_mul_toInt_le
  have hge : -2 ^ 62 ≤ a.toInt * b.toInt := BitVec.le_toInt_mul_toInt
  rw [productS, BitVec.toInt_mul, BitVec.toInt_signExtend_of_le (by decide), BitVec.toInt_signExtend_of_le (by decide)]
  exact Int.bmod_eq_of_le (by norm_num; omega) (by norm_num; omega)

section Multiply

variable {i : Instr} {f : Word → Word → BitVec 64} {rd rs1 : Reg} {o : Opnd2} {s : State} (q : BitVec 64 → Prop)
  (hq : q (f (readReg rs1 s) (opnd2 o s)))
include hq

/-- Y and `x[rd]` together hold the product. -/
theorem multiply_completes (h : exec i s = .next (advance (multiply f rd rs1 o s))) :
    ∃ low : Word, Completes i s fun t => Advanced s t ∧ Holds rd low t ∧ q (t.y ++ low) ∧
      Frame { slots := [slot s.psr.cwp rd], y := true } s t :=
  ⟨productLow f rs1 o s, (completes_resultY h).imp fun _ ⟨ha, hh, hy, hf⟩ =>
    ⟨ha, hh, hy.symm ▸ (split_double _).symm ▸ hq, hf⟩⟩

/-- The cc form takes N and Z from the low word. -/
theorem multiplyCc_completes
    (h : exec i s = .next (advance (setIcc (plainIcc (productLow f rs1 o s) false) (multiply f rd rs1 o s)))) :
    ∃ low : Word, Completes i s fun t => Advanced s t ∧ Holds rd low t ∧ q (t.y ++ low) ∧ t.psr.n = low.getLsbD 31 ∧
      (t.psr.z = true ↔ low = 0) ∧ t.psr.v = false ∧ t.psr.c = false ∧
      Frame { slots := [slot s.psr.cwp rd], y := true, icc := true } s t :=
  ⟨productLow f rs1 o s, (completes_resultIccY h).imp fun _ ⟨ha, hh, hy, hn, hz, hv, hc, hf⟩ =>
    ⟨ha, hh, hy.symm ▸ (split_double _).symm ▸ hq, hn, hz, hv, hc, hf⟩⟩

end Multiply

/-- Settles O18: no product of two words leaves 64 bits. -/
theorem multiplyProducts : Obligations.MultiplyProducts := by
  intro rd rs1 o s a b
  exact ⟨multiply_completes (fun p => p.toNat = _) (productU_toNat a b) rfl,
    multiply_completes (fun p => p.toInt = _) (productS_toInt a b) rfl,
    multiplyCc_completes (fun p => p.toNat = _) (productU_toNat a b) rfl,
    multiplyCc_completes (fun p => p.toInt = _) (productS_toInt a b) rfl⟩

end Sys2Proof.Machine
end

section
/-! The divides: quotients and the traps before them (40_integer_arithmetic.md, R325 to R334). -/

namespace Sys2Proof.Machine

open Sys2Proof.Spec

/-! ## The dividend (R331) -/

theorem toInt_append_eq (y a : Word) : (y ++ a).toInt = y.toInt * 2 ^ 32 + a.toNat := by
  rw [BitVec.toInt_append, if_neg (by decide), mul_comm]

theorem toNat_high (y : Word) : (y.extractLsb' 20 12).toNat = y.toNat / 2 ^ 20 := by
  have := y.isLt
  rw [BitVec.extractLsb'_toNat, Nat.shiftRight_eq_div_pow]
  omega

/-- The unsigned dividend `y :: a` does not fit 52 bits. -/
theorem dividendWideU_iff (y a : Word) : dividendWideU y = true ↔ 2 ^ 52 ≤ y.toNat * 2 ^ 32 + a.toNat := by
  have hzero : (0 : BitVec 12).toNat = 0 := rfl
  have := a.isLt
  rw [dividendWideU, bne_iff_ne, ne_eq, ← BitVec.toNat_inj, toNat_high, hzero]
  omega

/-- The signed dividend `y :: a` does not fit 52 bits. -/
theorem dividendWideS_iff (y a : Word) :
    dividendWideS y = true ↔ (y ++ a).toInt < -2 ^ 51 ∨ 2 ^ 51 ≤ (y ++ a).toInt := by
  have hbit : y.getLsbD 19 = decide (y.toNat / 2 ^ 19 % 2 = 1) := Nat.testBit_eq_decide_div_mod_eq
  have hzero : (0 : BitVec 12).toNat = 0 := rfl
  have hones : (0xFFF : BitVec 12).toNat = 0xFFF := rfl
  have := y.isLt
  have := a.isLt
  rw [toInt_append_eq, BitVec.toInt_eq_toNat_cond]
  simp only [dividendWideS, hbit, Bool.not_eq_true', Bool.or_eq_false_iff, Bool.and_eq_false_iff, beq_eq_false_iff_ne, ne_eq,
    ← BitVec.toNat_inj, toNat_high, hzero, hones, Bool.not_eq_false', decide_eq_true_eq, decide_eq_false_iff_not]
  omega

/-! ## The quotient -/

/-- R325: the quotient as a number, capped. -/
theorem quotientU_eq {y a b r : Word}
    (hr : r.toNat = min ((y.toNat * 2 ^ 32 + a.toNat) / b.toNat) (2 ^ 32 - 1)) :
    quotientU y a b = ⟨r, decide (2 ^ 32 ≤ (y.toNat * 2 ^ 32 + a.toNat) / b.toNat)⟩ := by
  rw [quotientU, toNat_append_eq]
  generalize (y.toNat * 2 ^ 32 + a.toNat) / b.toNat = q at hr ⊢
  split_ifs with h
  · have hword : (0xFFFFFFFF : Word).toNat = 2 ^ 32 - 1 := rfl
    rw [decide_eq_true (by omega)]
    exact congrArg (Quotient.mk · true) (BitVec.eq_of_toNat_eq (by rw [hr, hword]; omega))
  · rw [decide_eq_false (by omega)]
    exact congrArg (Quotient.mk · false) (BitVec.eq_of_toNat_eq (by rw [hr, BitVec.toNat_ofNat]; omega))

/-- R327: the quotient as a number, rounded toward zero and saturated. -/
theorem quotientS_eq {y a b r : Word}
    (hr : r.toInt = max (-2 ^ 31) (min ((y ++ a).toInt.tdiv b.toInt) (2 ^ 31 - 1))) :
    quotientS y a b =
      ⟨r, decide ((y ++ a).toInt.tdiv b.toInt < -2 ^ 31 ∨ 2 ^ 31 ≤ (y ++ a).toInt.tdiv b.toInt)⟩ := by
  rw [quotientS]
  generalize (y ++ a).toInt.tdiv b.toInt = q at hr ⊢
  split_ifs with hmax hmin
  · have hword : (0x7FFFFFFF : Word).toInt = 2 ^ 31 - 1 := by decide
    rw [decide_eq_true (by omega)]
    exact congrArg (Quotient.mk · true) (BitVec.eq_of_toInt_eq (by rw [hr, hword]; omega))
  · have hword : (0x80000000 : Word).toInt = -2 ^ 31 := by decide
    rw [decide_eq_true (by omega)]
    exact congrArg (Quotient.mk · true) (BitVec.eq_of_toInt_eq (by rw [hr, hword]; omega))
  · have hword : (BitVec.ofInt 32 q).toInt = q :=
      BitVec.toInt_ofInt_eq_self (by decide) (by norm_num; omega) (by norm_num; omega)
    rw [decide_eq_false (by omega)]
    exact congrArg (Quotient.mk · false) (BitVec.eq_of_toInt_eq (by rw [hr, hword]; omega))

/-! ## The two forms of a divide -/

section Divide

variable {i j : Instr} {wide : Word → Bool} {q : Word → Word → Word → Quotient} {rd rs1 : Reg} {o : Opnd2} {s : State}

theorem divide_of_wide (h : wide s.y = true) : divide wide q rs1 o s = .trap ttIllegal s := by
  rw [divide, if_pos h]

theorem divide_of_zero (h : wide s.y = false) (hd : opnd2 o s = 0) :
    divide wide q rs1 o s = .trap ttDivisionByZero s := by
  rw [divide, if_neg (by simp [h]), if_pos hd]

theorem divide_of_fits (h : wide s.y = false) (hd : opnd2 o s ≠ 0) :
    divide wide q rs1 o s = .ok (q s.y (readReg rs1 s) (opnd2 o s)) s := by
  rw [divide, if_neg (by simp [h]), if_neg hd]

/-- Both forms take a trap of the divide and write nothing. -/
theorem traps_of_divide {tt : TrapType} (h : divide wide q rs1 o s = .trap tt s)
    (hi : exec i s = divPlain wide q rd rs1 o s) (hj : exec j s = divCc wide q rd rs1 o s) :
    ∀ x ∈ [i, j], Traps x tt s := by
  intro x hx
  simp only [List.mem_cons, List.not_mem_nil, or_false] at hx
  obtain rfl | rfl := hx
  · rw [Traps, hi, divPlain, h, andThen_trap, finish_trap, takeTrapWith_self]
  · rw [Traps, hj, divCc, h, andThen_trap, finish_trap, takeTrapWith_self]

/-- A dividend that does not fit comes before a divisor 0 (D3). -/
theorem divide_traps (hi : exec i s = divPlain wide q rd rs1 o s) (hj : exec j s = divCc wide q rd rs1 o s) :
    ∀ x ∈ [i, j], (wide s.y = true → Traps x 0x02 s) ∧ (wide s.y = false → opnd2 o s = 0 → Traps x 0x2A s) :=
  fun x hx => ⟨fun h => traps_of_divide (divide_of_wide h) hi hj x hx,
    fun h hd => traps_of_divide (divide_of_zero h hd) hi hj x hx⟩

/-- Both forms write the quotient; the cc form has V where it was capped, and C 0. -/
theorem divide_completes {r : Word} {V : Prop} [Decidable V] (hi : exec i s = divPlain wide q rd rs1 o s)
    (hj : exec j s = divCc wide q rd rs1 o s) (hw : wide s.y = false) (hd : opnd2 o s ≠ 0)
    (hq : q s.y (readReg rs1 s) (opnd2 o s) = ⟨r, decide V⟩) :
    (Completes i s fun t => Advanced s t ∧ Holds rd r t ∧ Frame { slots := [slot s.psr.cwp rd] } s t) ∧
    (Completes j s fun t => Advanced s t ∧ Holds rd r t ∧ t.psr.n = r.getLsbD 31 ∧ (t.psr.z = true ↔ r = 0) ∧
      (t.psr.v = true ↔ V) ∧ t.psr.c = false ∧ Frame { slots := [slot s.psr.cwp rd], icc := true } s t) := by
  constructor
  · apply completes_result
    rw [hi, divPlain, divide_of_fits hw hd, andThen_ok, finish_ok, hq]
  · apply completes_resultIcc_iff (v := decide V) decide_eq_true_iff
    rw [hj, divCc, divide_of_fits hw hd, andThen_ok, finish_ok, hq]
    rfl

end Divide

/-- Settles O19: the dividend fits and the divisor is not 0, so both forms write the quotient. -/
theorem unsignedDivide : Obligations.UnsignedDivide := by
  intro rd rs1 o s D d hD hd r hr
  have hw : dividendWideU s.y = false :=
    Bool.eq_false_iff.mpr fun h => absurd hD (not_lt.mpr ((dividendWideU_iff s.y (readReg rs1 s)).mp h))
  have hz : opnd2 o s ≠ 0 := fun h => hd (congrArg BitVec.toNat h)
  exact divide_completes rfl rfl hw hz (quotientU_eq hr)

/-- Settles O20, as O19 with the signed quotient. -/
theorem signedDivide : Obligations.SignedDivide := by
  intro rd rs1 o s D d hD hD' hd r hr
  have hw : dividendWideS s.y = false :=
    Bool.eq_false_iff.mpr fun h =>
      ((dividendWideS_iff s.y (readReg rs1 s)).mp h).elim (not_lt.mpr hD') (not_le.mpr hD)
  have hz : opnd2 o s ≠ 0 := fun h => hd (congrArg BitVec.toInt h)
  exact divide_completes rfl rfl hw hz (quotientS_eq hr)

/-! ## The traps of a divide -/

theorem unsignedDivide_traps (rd rs1 : Reg) (o : Opnd2) (s : State) : ∀ i ∈ [Instr.udiv rd rs1 o, .udivcc rd rs1 o],
    (2 ^ 52 ≤ s.y.toNat * 2 ^ 32 + (readReg rs1 s).toNat → Traps i 0x02 s) ∧
      (s.y.toNat * 2 ^ 32 + (readReg rs1 s).toNat < 2 ^ 52 → opnd2 o s = 0 → Traps i 0x2A s) := by
  intro i hi
  have h := divide_traps (s := s) (i := .udiv rd rs1 o) (j := .udivcc rd rs1 o) rfl rfl i hi
  rwa [← Bool.not_eq_true, dividendWideU_iff s.y (readReg rs1 s), not_le] at h

theorem signedDivide_traps (rd rs1 : Reg) (o : Opnd2) (s : State) : ∀ i ∈ [Instr.sdiv rd rs1 o, .sdivcc rd rs1 o],
    ((s.y ++ readReg rs1 s).toInt < -2 ^ 51 ∨ 2 ^ 51 ≤ (s.y ++ readReg rs1 s).toInt → Traps i 0x02 s) ∧
      (-2 ^ 51 ≤ (s.y ++ readReg rs1 s).toInt → (s.y ++ readReg rs1 s).toInt < 2 ^ 51 → opnd2 o s = 0 →
        Traps i 0x2A s) := by
  intro i hi
  have h := divide_traps (s := s) (i := .sdiv rd rs1 o) (j := .sdivcc rd rs1 o) rfl rfl i hi
  rwa [← Bool.not_eq_true, dividendWideS_iff s.y (readReg rs1 s), not_or, not_lt, not_le, and_imp] at h

/-! ## The step of an instruction that traps -/

/-- What the fetch of a step leaves of what an instruction reads. -/
structure FetchedFrom (s t : State) : Prop where
  pc : t.pc = s.pc
  npc : t.npc = s.npc
  psr : t.psr = s.psr
  y : t.y = s.y
  regs : ∀ r, readReg r t = readReg r s

theorem fetchedFrom {s t : State} {pa : PAddr} (h : fetchTarget (beginStep s) = .ok pa t) :
    FetchedFrom s (fetchWord pa t).2 := by
  have r := reached_fetchTarget (beginStep s)
  rw [h] at r
  rw [fetchWord_only, r.only]
  exact ⟨rfl, rfl, rfl, rfl, fun _ => rfl⟩

theorem FetchedFrom.opnd2 {s t : State} (h : FetchedFrom s t) (o : Opnd2) : opnd2 o t = opnd2 o s := by
  cases o with
  | reg rs2 => exact h.regs rs2
  | imm simm13 => rfl

/-- R790: the entry into a trap handler saves the program counters in the local registers 1 and 2 of its window. -/
theorem readReg_takeTrap {s : State} (he : s.psr.et = true) (tt : TrapType) :
    readReg 17 (takeTrap tt s) = s.pc ∧ readReg 18 (takeTrap tt s) = s.npc := by
  rw [takeTrap_of_et he]
  constructor
  · show readRegIn (s.psr.cwp - 1) 17 (writeRegIn (s.psr.cwp - 1) 18 s.npc (writeRegIn (s.psr.cwp - 1) 17 s.pc s)) = s.pc
    rw [readRegIn_writeRegIn_of_slot_ne (slot_l1_ne_l2 _), readRegIn_writeRegIn_same _ (by decide)]
  · exact readRegIn_writeRegIn_same _ (by decide) _ _

/-- The counters leave the registers. -/
theorem readReg_count (r : Reg) (old new : State) : readReg r (count old new) = readReg r new := by
  rw [readReg, readReg, count_psr]
  exact readRegIn_congr (count_globals old new) (count_windows old new) _ r

/-- The counters leave the request of a code breakpoint. -/
@[simp] theorem count_pendC (old new : State) : (count old new).mon.pendC = new.mon.pendC := by
  unfold count
  dsimp only
  split_ifs <;> rfl

/-- A synchronous trap of the instruction at pc comes before an interrupt (R775): the step is that of the instruction. -/
theorem step_of_trapped {s u : State} (he : s.errorMode = false) (h : runInstruction (beginStep s) = .next u)
    (ht : u.trapped = true) : step s = .next (count (beginStep s) u) := by
  simp [step, runStep, he, h, counter, ht]

/-- Settles O21. The instruction of a step reads its operands as they were before the fetch, so that it traps as in `s`. -/
theorem divideTraps : Obligations.DivideTraps := by
  intro rd rs1 o s U S
  refine ⟨unsignedDivide_traps rd rs1 o s, signedDivide_traps rd rs1 o s, ?_⟩
  intro pa t i he het hf hp hdec hd hfit
  have hk := fetchedFrom hf
  have htraps : Traps i 0x2A (fetchWord pa t).2 := by
    rcases hfit with ⟨hi, hU⟩ | ⟨hi, hS, hS'⟩
    · exact (unsignedDivide_traps rd rs1 o _ i hi).2 (by rwa [hk.y, hk.regs]) ((hk.opnd2 o).trans hd)
    · exact (signedDivide_traps rd rs1 o _ i hi).2 (by rwa [hk.y, hk.regs]) (by rwa [hk.y, hk.regs]) ((hk.opnd2 o).trans hd)
  have hrun := (runInstruction_of_decoded hf hdec).trans htraps
  obtain ⟨h17, h18⟩ := readReg_takeTrap (hk.psr ▸ het : (fetchWord pa t).2.psr.et = true) 0x2A
  refine ⟨_, step_of_trapped he hrun (takeTrap_trapped _ _), by simp, by simp, ?_, ?_, ?_⟩
  · rw [readReg_count, h17, hk.pc]
  · rw [readReg_count, h18, hk.npc]
  · rwa [count_pendC, takeTrap_mon, fetchWord_only]

end Sys2Proof.Machine
end

section
/-! What a load or store checks before its access, and what the access is once it has found its target (R150, R151, R153,
R371). -/

namespace Sys2Proof.Machine

open Sys2Proof.Spec

/-! ## Alignment (R155) -/

theorem aligned_iff {w : Width} {a : Word} : aligned w a = true ↔ a.toNat % bytesOf w = 0 := beq_iff_eq

theorem not_aligned_iff {w : Width} {a : Word} : aligned w a = false ↔ a.toNat % bytesOf w ≠ 0 := beq_eq_false_iff_ne

theorem aligned_byte (a : Word) : aligned .byte a = true := aligned_iff.mpr (Nat.mod_one _)

section Misaligned

variable {asi : Asi} {w : Width} {rd : Reg} {a : Word} {s : State} (ha : aligned w a = false)
include ha

theorem memRead_of_misaligned (k : DwordKind) : memRead asi w k a s = .trap ttNotAligned s :=
  if_neg (by rw [ha]; decide)

theorem memWrite_of_misaligned (k : DwordKind) (d : BitVec 64) : memWrite asi w k a d s = .trap ttNotAligned s :=
  if_neg (by rw [ha]; decide)

theorem memSwap_of_misaligned (d : BitVec 64) : memSwap asi w a d s = .trap ttNotAligned s :=
  if_neg (by rw [ha]; decide)

theorem loadReg_misaligned (ext : BitVec 64 → Word) : loadReg w ext asi rd a s = .next (takeTrap ttNotAligned s) := by
  rw [loadReg, memRead_of_misaligned ha, andThen_trap, finish_trap, takeTrapWith_self]

theorem storeReg_misaligned : storeReg w asi rd a s = .next (takeTrap ttNotAligned s) := by
  rw [storeReg, memWrite_of_misaligned ha, andThen_trap, finish_trap, takeTrapWith_self]

end Misaligned

section Checks

variable {asi : Asi} {rd : Reg} {a : Word} {s : State}

theorem swapReg_misaligned (ha : aligned .word a = false) : swapReg asi rd a s = .next (takeTrap ttNotAligned s) := by
  rw [swapReg, memSwap_of_misaligned ha, andThen_trap, finish_trap, takeTrapWith_self]

theorem loadPair_of_odd (h : rd.getLsbD 0 = true) : loadPair asi rd a s = .next (takeTrap ttIllegal s) := if_pos h

theorem storePair_of_odd (h : rd.getLsbD 0 = true) : storePair asi rd a s = .next (takeTrap ttIllegal s) := if_pos h

/-- With an even `rd` a doubleword load is one access. -/
theorem loadPair_of_even (h : rd.getLsbD 0 = false) : loadPair asi rd a s =
    finish s (andThen (memRead asi .dword .integer a s) fun d t =>
      .ok () (advance (writeReg (pairOdd rd) (lowWord d) (writeReg rd (highWord d) t)))) :=
  if_neg (by rw [h]; decide)

theorem storePair_of_even (h : rd.getLsbD 0 = false) : storePair asi rd a s =
    finish s (andThen (memWrite asi .dword .integer a (readReg rd s ++ readReg (pairOdd rd) s) s) fun _ t =>
      .ok () (advance t)) :=
  if_neg (by rw [h]; decide)

theorem loadPair_misaligned (h : rd.getLsbD 0 = false) (ha : aligned .dword a = false) :
    loadPair asi rd a s = .next (takeTrap ttNotAligned s) := by
  rw [loadPair_of_even h, memRead_of_misaligned ha, andThen_trap, finish_trap, takeTrapWith_self]

theorem storePair_misaligned (h : rd.getLsbD 0 = false) (ha : aligned .dword a = false) :
    storePair asi rd a s = .next (takeTrap ttNotAligned s) := by
  rw [storePair_of_even h, memWrite_of_misaligned ha, andThen_trap, finish_trap, takeTrapWith_self]

end Checks

/-! ## The obligation -/

/-- The plain forms check in the data space of the mode. -/
theorem plainForms_misaligned (rd rs1 : Reg) (o : Opnd2) (s : State) :
    (aligned .half (address rs1 o s) = false →
      ∀ i ∈ [Instr.lduh rd rs1 o, .ldsh rd rs1 o, .sth rd rs1 o], Traps i 0x07 s) ∧
    (aligned .word (address rs1 o s) = false →
      ∀ i ∈ [Instr.ld rd rs1 o, .st rd rs1 o, .swap rd rs1 o], Traps i 0x07 s) ∧
    (aligned .dword (address rs1 o s) = false → rd.getLsbD 0 = false →
      ∀ i ∈ [Instr.ldd rd rs1 o, .std rd rs1 o], Traps i 0x07 s) := by
  have nil : ∀ i ∈ ([] : List Instr), Traps i 0x07 s := List.forall_mem_nil _
  simp only [List.forall_mem_cons]
  exact ⟨fun h => ⟨loadReg_misaligned h zeroHalf, loadReg_misaligned h signHalf, storeReg_misaligned h, nil⟩,
    fun h => ⟨loadReg_misaligned h lowWord, storeReg_misaligned h, swapReg_misaligned h, nil⟩,
    fun h he => ⟨loadPair_misaligned he h, storePair_misaligned he h, nil⟩⟩

/-- The alternate forms check whatever the address space is. -/
theorem alternateForms_misaligned (rd rs1 rs2 : Reg) (asi : Asi) {s : State} (hs : s.psr.s = true) :
    (aligned .half (altAddress rs1 rs2 s) = false →
      ∀ i ∈ [Instr.lduha rd rs1 false asi rs2, .ldsha rd rs1 false asi rs2, .stha rd rs1 false asi rs2],
        Traps i 0x07 s) ∧
    (aligned .word (altAddress rs1 rs2 s) = false →
      ∀ i ∈ [Instr.lda rd rs1 false asi rs2, .sta rd rs1 false asi rs2, .swapa rd rs1 false asi rs2], Traps i 0x07 s) ∧
    (aligned .dword (altAddress rs1 rs2 s) = false → rd.getLsbD 0 = false →
      ∀ i ∈ [Instr.ldda rd rs1 false asi rs2, .stda rd rs1 false asi rs2], Traps i 0x07 s) := by
  have sup {r : Result} (h : r = .next (takeTrap ttNotAligned s)) :
      alternate false s r = .next (takeTrap ttNotAligned s) := (alternate_of_supervisor hs r).trans h
  have nil : ∀ i ∈ ([] : List Instr), Traps i 0x07 s := List.forall_mem_nil _
  simp only [List.forall_mem_cons]
  exact ⟨fun h => ⟨sup (loadReg_misaligned h zeroHalf), sup (loadReg_misaligned h signHalf), sup (storeReg_misaligned h),
      nil⟩,
    fun h => ⟨sup (loadReg_misaligned h lowWord), sup (storeReg_misaligned h), sup (swapReg_misaligned h), nil⟩,
    fun h he => ⟨sup (loadPair_misaligned he h), sup (storePair_misaligned he h), nil⟩⟩

/-- Settles O43: the checks in the order the instructions make them. -/
theorem memoryFormTraps : Obligations.MemoryFormTraps := by
  intro rd rs1 rs2 o asi s a a'
  have plain := plainForms_misaligned rd rs1 o s
  have alt := alternateForms_misaligned rd rs1 rs2 asi (s := s)
  simp only [not_aligned_iff] at plain alt
  obtain ⟨half, word, dword⟩ := plain
  have nil : ∀ i ∈ ([] : List Instr), Traps i 0x02 s := List.forall_mem_nil _
  refine ⟨fun hs => ?_, fun hodd => ?_, half, word, dword, alt⟩
  · simp only [List.forall_mem_cons]
    refine ⟨?_, ?_, ?_, ?_, ?_, ?_, ?_, ?_, ?_, ?_, ?_, ?_, nil⟩ <;> exact alternate_of_immediate hs _
  · simp only [List.forall_mem_cons]
    exact ⟨⟨loadPair_of_odd hodd, storePair_of_odd hodd, nil⟩, fun hs =>
      ⟨(alternate_of_supervisor hs _).trans (loadPair_of_odd hodd),
        (alternate_of_supervisor hs _).trans (storePair_of_odd hodd), nil⟩⟩

end Sys2Proof.Machine
end

section
/-! Data and their bytes (R140 to R145): a datum at a target as bytes in the order of the access, and a store of one at the
target of a translation. -/

namespace Sys2Proof.Machine

open Sys2Proof.Spec

/-! ## Bytes of words -/

theorem joinBytes_one (a : Byte) : joinBytes [a] = a.setWidth 64 := by
  simp [joinBytes]

theorem joinBytes_two (a b : Byte) : joinBytes [a, b] = (a ++ b).setWidth 64 := by
  simp only [BitVec.setWidth_append_eq_shiftLeft_setWidth_or, joinBytes, List.foldl]
  simp

theorem joinBytes_four (a b c d : Byte) : joinBytes [a, b, c, d] = (a ++ b ++ c ++ d).setWidth 64 := by
  simp only [BitVec.setWidth_append_eq_shiftLeft_setWidth_or, joinBytes, List.foldl]
  simp

theorem joinBytes_eight (a b c d e f g h : Byte) :
    joinBytes [a, b, c, d, e, f, g, h] = a ++ b ++ c ++ d ++ e ++ f ++ g ++ h := by
  rw [← BitVec.setWidth_eq (a ++ b ++ c ++ d ++ e ++ f ++ g ++ h)]
  simp only [BitVec.setWidth_append_eq_shiftLeft_setWidth_or, joinBytes, List.foldl]
  simp

/-- The eight bytes of two words side by side. -/
theorem joinBytes_words (a b c d e f g h : Byte) :
    joinBytes [a, b, c, d, e, f, g, h] = (a ++ b ++ c ++ d) ++ (e ++ f ++ g ++ h) := by
  rw [joinBytes_eight]
  apply BitVec.eq_of_toNat_eq
  simp only [toNat_append_eq]
  omega

theorem splitBytes_byte (w : Word) : splitBytes (w.setWidth 64) 1 = (wordBytes w).drop 3 := by
  simp (disch := decide) only [splitBytes, wordBytes, BitVec.extractLsb'_setWidth_of_le, List.drop]

theorem splitBytes_half (w : Word) : splitBytes (w.setWidth 64) 2 = (wordBytes w).drop 2 := by
  simp (disch := decide) only [splitBytes, wordBytes, BitVec.extractLsb'_setWidth_of_le, List.drop]

theorem splitBytes_word (w : Word) : splitBytes (w.setWidth 64) 4 = wordBytes w := by
  simp (disch := decide) only [splitBytes, wordBytes, BitVec.extractLsb'_setWidth_of_le]

theorem splitBytes_words (v w : Word) : splitBytes (v ++ w : BitVec 64) 8 = wordBytes v ++ wordBytes w := by
  simp (disch := decide) only [splitBytes, wordBytes, BitVec.extractLsb'_append_eq_of_le,
    BitVec.extractLsb'_append_eq_of_add_le, List.cons_append, List.nil_append]

/-! ## The order of an access (R141 to R145) -/

/-- The bytes of a datum in the order of memory: a byte order `de` of the processor that is not that of the target reverses
them (R143). -/
def inOrder (de : Bool) (p : Target) (bs : List Byte) : List Byte := if de = p.rbo then bs else bs.reverse

@[simp] theorem inOrder_length (de : Bool) (p : Target) (bs : List Byte) : (inOrder de p bs).length = bs.length := by
  unfold inOrder
  split_ifs <;> simp

@[simp] theorem inOrder_singleton (de : Bool) (p : Target) (b : Byte) : inOrder de p [b] = [b] := by
  simp [inOrder]

/-- Bytes stored through one target and read through another come back as they were, or reversed (R149). -/
theorem inOrder_inOrder (de : Bool) (p q : Target) (bs : List Byte) :
    inOrder de q (inOrder de p bs) = if q.rbo = p.rbo then bs else bs.reverse := by
  unfold inOrder
  cases de <;> cases p.rbo <;> cases q.rbo <;> simp

section Order

variable {de : Bool} {u : State} (hde : u.psr.de = de) (p : Target)
include hde

/-- Every datum but an integer doubleword is reversed as a whole. -/
theorem orderBytes_whole {k : DwordKind} {bs : List Byte} (h : bs.length ≠ 8 ∨ k = .float) :
    orderBytes (isLittle p u) k bs = inOrder de p bs := by
  have hk : ¬ (bs.length = 8 ∧ k = .integer) := by
    rintro ⟨hl, rfl⟩
    exact h.elim (· hl) nofun
  unfold orderBytes isLittle inOrder
  rw [if_neg hk, hde]
  by_cases hb : de = p.rbo <;> simp [hb]

/-- An integer doubleword is two words, each in the order of the access (R145). -/
theorem orderBytes_words {v w : List Byte} (hv : v.length = 4) (hw : w.length = 4) :
    orderBytes (isLittle p u) .integer (v ++ w) = inOrder de p v ++ inOrder de p w := by
  unfold orderBytes isLittle inOrder
  rw [if_pos (show (v ++ w).length = 8 ∧ _ from ⟨by simp [hv, hw], rfl⟩), hde, List.take_left' hv, List.drop_left' hv]
  by_cases hb : de = p.rbo <;> simp [hb]

end Order

/-! ## Data at a target -/

/-- The two bytes at `p` as a halfword. -/
def halfAt (de : Bool) (u : State) (p : Target) : BitVec 16 :=
  if de = p.rbo then byteAt u p.pa 0 ++ byteAt u p.pa 1 else byteAt u p.pa 1 ++ byteAt u p.pa 0

/-- The four bytes from byte `k` at `p` up, as a word. -/
def wordAt (de : Bool) (u : State) (p : Target) (k : Nat) : Word :=
  if de = p.rbo then byteAt u p.pa k ++ byteAt u p.pa (k + 1) ++ byteAt u p.pa (k + 2) ++ byteAt u p.pa (k + 3)
  else byteAt u p.pa (k + 3) ++ byteAt u p.pa (k + 2) ++ byteAt u p.pa (k + 1) ++ byteAt u p.pa k

/-- The eight bytes at `p` as one number. -/
def doubleAt (de : Bool) (u : State) (p : Target) : BitVec 64 :=
  if de = p.rbo then
    byteAt u p.pa 0 ++ byteAt u p.pa 1 ++ byteAt u p.pa 2 ++ byteAt u p.pa 3 ++ byteAt u p.pa 4 ++ byteAt u p.pa 5 ++
      byteAt u p.pa 6 ++ byteAt u p.pa 7
  else
    byteAt u p.pa 7 ++ byteAt u p.pa 6 ++ byteAt u p.pa 5 ++ byteAt u p.pa 4 ++ byteAt u p.pa 3 ++ byteAt u p.pa 2 ++
      byteAt u p.pa 1 ++ byteAt u p.pa 0

/-- Four bytes in the order of the access, as a word. -/
theorem joinBytes_inOrder_four (de : Bool) (p : Target) (a b c d : Byte) : joinBytes (inOrder de p [a, b, c, d]) =
    (if de = p.rbo then a ++ b ++ c ++ d else d ++ c ++ b ++ a).setWidth 64 := by
  unfold inOrder
  split_ifs
  · exact joinBytes_four a b c d
  · exact joinBytes_four d c b a

section Read

variable {de : Bool} {u : State} (hde : u.psr.de = de) (p : Target)
include hde

theorem readTarget_byte (k : DwordKind) : readTarget .byte k p u = (byteAt u p.pa 0).setWidth 64 := by
  rw [readTarget, orderBytes_whole hde p (.inl (by simp [bytesOf]))]
  exact (congrArg joinBytes (inOrder_singleton ..)).trans (joinBytes_one _)

theorem readTarget_half (k : DwordKind) : readTarget .half k p u = (halfAt de u p).setWidth 64 := by
  rw [readTarget, orderBytes_whole hde p (.inl (by simp [bytesOf]))]
  unfold inOrder halfAt
  split_ifs
  · exact joinBytes_two ..
  · exact joinBytes_two ..

theorem readTarget_word (k : DwordKind) : readTarget .word k p u = (wordAt de u p 0).setWidth 64 := by
  rw [readTarget, orderBytes_whole hde p (.inl (by simp [bytesOf]))]
  exact joinBytes_inOrder_four ..

theorem readTarget_words : readTarget .dword .integer p u = wordAt de u p 0 ++ wordAt de u p 4 := by
  have hb : Memory.readBytes u.mem p.pa.toNat (bytesOf .dword) =
      [byteAt u p.pa 0, byteAt u p.pa 1, byteAt u p.pa 2, byteAt u p.pa 3] ++
        [byteAt u p.pa 4, byteAt u p.pa 5, byteAt u p.pa 6, byteAt u p.pa 7] := rfl
  rw [readTarget, hb, orderBytes_words hde p rfl rfl]
  unfold inOrder wordAt
  split_ifs
  · exact joinBytes_words ..
  · exact joinBytes_words ..

theorem readTarget_double : readTarget .dword .float p u = doubleAt de u p := by
  rw [readTarget, orderBytes_whole hde p (.inr rfl)]
  unfold inOrder doubleAt
  split_ifs
  · exact joinBytes_eight ..
  · exact joinBytes_eight ..

end Read

end Sys2Proof.Machine
end

section
/-! Accesses that find their target (R150, R151, R153): what is read and written there, and the frame of a write. -/

namespace Sys2Proof.Machine

open Sys2Proof.Spec

/-! ## The state after the translation -/

theorem reached_of_reachesIn {asi : Asi} {kind : Access} {a : Word} {s u : State} {p : Target}
    (h : ReachesIn asi kind a s p u) : Reached s u := by
  obtain ⟨-, ht⟩ := h
  have c := reached_memoryTarget (spaceOf asi) kind a s
  rw [ht] at c
  exact c

section Reached

variable {s u : State} (r : Reached s u)
include r

theorem Reached.advanced {t : State} (hpc : t.pc = u.npc) (hnpc : t.npc = u.npc + 4) : Advanced s t := by
  obtain ⟨-, h, -⟩ := reached_pcs r
  exact ⟨hpc.trans h, hnpc.trans (by rw [h])⟩

theorem Reached.psr_eq : u.psr = s.psr := by rw [r.only]

theorem Reached.de_eq : u.psr.de = s.psr.de := by rw [r.psr_eq]

theorem Reached.fpu_eq : u.fsr = s.fsr ∧ u.fq = s.fq ∧ u.fpMode = s.fpMode := by
  rw [r.only]
  exact ⟨rfl, rfl, rfl⟩

end Reached

/-! ## The access primitives -/

section Primitives

variable {asi : Asi} {w : Width} {a : Word} {s u : State} {p : Target} (ha : aligned w a = true)
include ha

theorem memRead_of_reachesIn (h : ReachesIn asi .load a s p u) (k : DwordKind) :
    memRead asi w k a s = .ok (readTarget w k p u) u := by
  obtain ⟨hs, ht⟩ := h
  rw [memRead, if_pos ha]
  split
  · contradiction
  · rw [ht, andThen_ok]

theorem memWrite_of_reachesIn (h : ReachesIn asi .store a s p u) (k : DwordKind) (d : BitVec 64) :
    memWrite asi w k a d s = .ok () (writeTarget w k p d u) := by
  obtain ⟨hs, ht⟩ := h
  rw [memWrite, if_pos ha]
  split
  · contradiction
  · rw [ht, andThen_ok]

theorem memSwap_of_reachesIn (h : ReachesIn asi .store a s p u) (d : BitVec 64) :
    memSwap asi w a d s = .ok (readTarget w .integer p u) (writeTarget w .integer p d u) := by
  obtain ⟨hs, ht⟩ := h
  rw [memSwap, if_pos ha]
  split
  · contradiction
  · rw [ht, andThen_ok]

/-! ## Writes -/

variable {kind : Access} (h : ReachesIn asi kind a s p u)
include h

/-- A datum written lies within one word, or is an aligned doubleword. -/
theorem target_aligned : p.pa.toNat % 4 + bytesOf w ≤ 4 ∨ (bytesOf w = 8 ∧ p.pa.toNat % 8 = 0) := by
  obtain ⟨-, ht⟩ := h
  have hm := memoryTarget_mod ht
  have ha := aligned_iff.mp ha
  cases w <;> simp only [bytesOf, true_and] at ha ⊢ <;> omega

/-- The bytes written stand at the target. -/
theorem readBytes_writeTarget (hw : Memory.wf s.mem = true) (k : DwordKind) (d : BitVec 64) :
    Memory.readBytes (writeTarget w k p d u).mem p.pa.toNat (bytesOf w) =
      orderBytes (isLittle p u) k (splitBytes d (bytesOf w)) := by
  have hl : (orderBytes (isLittle p u) k (splitBytes d (bytesOf w))).length = bytesOf w := by simp
  have hfits := target_fits ha h.2
  have := readBytes_writeBytes_same (orderBytes (isLittle p u) k (splitBytes d (bytesOf w)))
    ((reached_of_reachesIn h).wf hw) (hl.symm ▸ hfits)
  rwa [hl] at this

/-- A write changes its bytes and what fetches may still see of them (R205, log 4). -/
theorem frame_writeTarget {f : Writes} (hf : f.bytes = byteRange p.pa.toNat (bytesOf w)) (k : DwordKind) (d : BitVec 64) :
    Frame f u (writeTarget w k p d u) := by
  have hl : (orderBytes (isLittle p u) k (splitBytes d (bytesOf w))).length = bytesOf w := by simp
  have hpos : 0 < bytesOf w := by cases w <;> decide
  have hmem : ∀ c, c ∉ f.bytes → Memory.readByte (writeTarget w k p d u).mem c = Memory.readByte u.mem c := by
    intro c hc
    rw [hf, mem_byteRange] at hc
    exact storeBytes_readByte_outside p.pa _ u (by rw [hl]; omega)
  have hstale : ∀ e, e ∈ (writeTarget w k p d u).stale ↔ e ∈ u.stale ∨ Replaced f.bytes u (writeTarget w k p d u) e := by
    intro e
    have := mem_storeBytes_stale (pa := p.pa) u e
      (by rw [hl]; exact (target_aligned ha h).imp_left fun h4 => ⟨hpos, h4⟩)
    rwa [hl, ← hf] at this
  have hne : f.bytes ≠ [] := by
    rw [hf]
    cases w <;> exact nofun
  exact
    { Frame.refl f u with
      mem := hmem
      stale := fun _ e => absurd e hne
      replaced := fun _ _ => hstale }

end Primitives

end Sys2Proof.Machine
end

section
/-! The integer loads, stores and atomics where their access finds a target (41_load_store.md, R372 to R392, R410 to R413). -/

namespace Sys2Proof.Machine

open Sys2Proof.Spec

/-! ## What a load makes of its datum -/

theorem extractLsb'_setWidth_self {n m : Nat} (h : n ≤ m) (x : BitVec n) : (x.setWidth m).extractLsb' 0 n = x := by
  rw [BitVec.extractLsb'_setWidth_of_le (by omega), BitVec.extractLsb'_eq_self]

theorem zeroByte_setWidth (b : Byte) : zeroByte (b.setWidth 64) = b.setWidth 32 := by
  rw [zeroByte, extractLsb'_setWidth_self (by decide)]

theorem signByte_setWidth (b : Byte) : signByte (b.setWidth 64) = b.signExtend 32 := by
  rw [signByte, extractLsb'_setWidth_self (by decide)]

theorem zeroHalf_setWidth (h : BitVec 16) : zeroHalf (h.setWidth 64) = h.setWidth 32 := by
  rw [zeroHalf, extractLsb'_setWidth_self (by decide)]

theorem signHalf_setWidth (h : BitVec 16) : signHalf (h.setWidth 64) = h.signExtend 32 := by
  rw [signHalf, extractLsb'_setWidth_self (by decide)]

theorem highWord_append (v w : Word) : highWord (v ++ w) = v := BitVec.extractLsb'_append_eq_left

theorem lowWord_append (v w : Word) : lowWord (v ++ w) = w := BitVec.extractLsb'_append_eq_right

/-! ## Loads -/

section Loads

variable {i : Instr} {rd : Reg} {asi : Asi} {a : Word} {s u : State} {p : Target} (h : ReachesIn asi .load a s p u)
include h

/-- A load of `v` at its target leaves `v` in `rd` and changes nothing else. -/
theorem completes_loadReg {w : Width} {ext : BitVec 64 → Word} {v : Word} (hx : exec i s = loadReg w ext asi rd a s)
    (ha : aligned w a = true) (hv : ext (readTarget w .integer p u) = v) :
    Completes i s fun t => Advanced s t ∧ Holds rd v t ∧ Frame { slots := [slot s.psr.cwp rd] } u t := by
  have r := reached_of_reachesIn h
  refine ⟨advance (writeReg rd v u), ?_, r.advanced (by simp) (by simp), holds_advance_writeReg .., ?_⟩
  · rw [hx, loadReg, memRead_of_reachesIn ha h, andThen_ok, finish_ok, hv]
  · exact ((Frame.refl _ u).writeReg (by simp [r.psr_eq]) v).advance

/-- A doubleword load leaves its two words in the pair. -/
theorem completes_loadPair {v w : Word} (hx : exec i s = loadPair asi rd a s) (he : rd.getLsbD 0 = false)
    (ha : aligned .dword a = true) (hv : readTarget .dword .integer p u = v ++ w) :
    Completes i s fun t => Advanced s t ∧ Holds rd v t ∧ Holds (rd ||| 1) w t ∧
      Frame { slots := [slot s.psr.cwp rd, slot s.psr.cwp (rd ||| 1)] } u t := by
  have r := reached_of_reachesIn h
  obtain ⟨hhi, hlo⟩ := holds_pair he v w u
  refine ⟨_, ?_, r.advanced (by simp) (by simp), hhi, hlo, ?_⟩
  · rw [hx, loadPair_of_even he, memRead_of_reachesIn ha h, andThen_ok, finish_ok, hv, highWord_append, lowWord_append]
  · exact (((Frame.refl _ u).writeReg (by simp [r.psr_eq]) v).writeReg (by simp [r.psr_eq, pairOdd]) w).advance

end Loads

/-- Settles O40: each form reads its datum at the target and extends it. -/
theorem loadResults : Obligations.LoadResults := by
  intro rd rs1 rs2 o asi a s u p h b big half word loads
  have hde := (reached_of_reachesIn h).de_eq
  have load {plain alt : Instr} {w : Width} {ext : BitVec 64 → Word} {v : Word} (ha : aligned w a = true)
      (hv : ext (readTarget w .integer p u) = v) (hp : exec plain s = loadReg w ext (dataAsi s) rd (address rs1 o s) s)
      (hq : exec alt s = alternate false s (loadReg w ext asi rd (altAddress rs1 rs2 s) s)) : loads plain alt v :=
    fun i hi => completes_loadReg h (exec_of_accessForm hi (fun asi a => loadReg w ext asi rd a s) hp hq) ha hv
  refine ⟨?_, ?_, fun h2 => ⟨?_, ?_⟩, fun h4 => ?_, fun h8 he i hi => ?_⟩
  · exact load (aligned_byte a) (by rw [readTarget_byte hde, zeroByte_setWidth]) rfl rfl
  · exact load (aligned_byte a) (by rw [readTarget_byte hde, signByte_setWidth]) rfl rfl
  · exact load (w := .half) (aligned_iff.mpr h2)
      ((congrArg zeroHalf (readTarget_half hde p _)).trans (zeroHalf_setWidth _)) rfl rfl
  · exact load (w := .half) (aligned_iff.mpr h2)
      ((congrArg signHalf (readTarget_half hde p _)).trans (signHalf_setWidth _)) rfl rfl
  · exact load (w := .word) (aligned_iff.mpr h4)
      ((congrArg lowWord (readTarget_word hde p _)).trans (lowWord_setWidth _)) rfl rfl
  · exact completes_loadPair h (exec_of_accessForm hi (fun asi a => loadPair asi rd a s) rfl rfl) he (aligned_iff.mpr h8)
      (readTarget_words hde p)

/-! ## Stores -/

section Stores

variable {i : Instr} {rd : Reg} {asi : Asi} {w : Width} {a : Word} {s u : State} {p : Target}
  (h : ReachesIn asi .store a s p u) (hw : Memory.wf s.mem = true) (ha : aligned w a = true)
include h hw ha

/-- A store of `d` leaves its bytes `bs` at its target and changes nothing else. -/
theorem completes_store {d : BitVec 64} {bs : List Byte}
    (hx : exec i s = finish s (andThen (memWrite asi w .integer a d s) fun _ t => .ok () (advance t)))
    (hb : orderBytes (isLittle p u) .integer (splitBytes d (bytesOf w)) = bs) :
    Completes i s fun t => Advanced s t ∧ Memory.readBytes t.mem p.pa.toNat bs.length = bs ∧
      Frame { bytes := byteRange p.pa.toNat bs.length } u t := by
  have hl : bs.length = bytesOf w := by rw [← hb]; simp
  refine ⟨advance (writeTarget w .integer p d u), ?_, (reached_of_reachesIn h).advanced (by simp) (by simp), ?_, ?_⟩
  · rw [hx, memWrite_of_reachesIn ha h, andThen_ok, finish_ok]
  · rw [hl, ← hb]
    exact readBytes_writeTarget ha h hw _ d
  · exact (frame_writeTarget ha h (by rw [hl]) _ d).advance

end Stores

theorem readBytes_of_byteAt {s t : State} {pa : PAddr} {n : Nat} (h : ∀ k < n, byteAt s pa k = byteAt t pa k) :
    Memory.readBytes s.mem pa.toNat n = Memory.readBytes t.mem pa.toNat n :=
  readBytes_congr fun c hlo hhi => by
    obtain ⟨k, rfl⟩ := Nat.exists_eq_add_of_le hlo
    exact h k (by omega)

/-- A word load at a target where the bytes of `v` stand in the order of another target `p` (R149). -/
theorem lowWord_readTarget_of_stored {de : Bool} {u : State} (hde : u.psr.de = de) {p q : Target} (hq : q.pa = p.pa)
    {v : Word} (hb : Memory.readBytes u.mem p.pa.toNat 4 = inOrder de p (wordBytes v)) :
    lowWord (readTarget .word .integer q u) = if q.rbo = p.rbo then v else
      v.extractLsb' 0 8 ++ v.extractLsb' 8 8 ++ v.extractLsb' 16 8 ++ v.extractLsb' 24 8 := by
  have hj : readTarget .word .integer q u = joinBytes (if q.rbo = p.rbo then wordBytes v else (wordBytes v).reverse) := by
    rw [readTarget, orderBytes_whole hde q (.inl (by simp [bytesOf])), hq, ← inOrder_inOrder de p q, ← hb]
    rfl
  rw [hj]
  split_ifs
  · refine (congrArg lowWord (joinBytes_four ..)).trans ((lowWord_setWidth _).trans ?_)
    exact wordOfBytes_extractLsb' v
  · exact (congrArg lowWord (joinBytes_four ..)).trans (lowWord_setWidth _)

/-- The address of an access is aligned to four where its target is. -/
theorem aligned_word_of_target {asi asi' : Asi} {kind kind' : Access} {a a' : Word} {s u s' u' : State} {p q : Target}
    (hp : ReachesIn asi kind a s p u) (hq : ReachesIn asi' kind' a' s' q u') (hpq : q.pa = p.pa) (ha : a.toNat % 4 = 0) :
    aligned .word a' = true := by
  have hp := memoryTarget_mod hp.2
  have hq := memoryTarget_mod hq.2
  rw [hpq] at hq
  rw [aligned_iff, bytesOf]
  omega

/-- Settles O41: each form writes its datum at the target, and a load that reaches the word next reads it there. -/
theorem storeResults : Obligations.StoreResults := by
  intro rd rs1 rs2 o asi a s u p h hw v v' big order stores
  have hde := (reached_of_reachesIn h).de_eq
  have store {plain alt : Instr} {w : Width} {bs : List Byte} (ha : aligned w a = true)
      (hb : orderBytes (isLittle p u) .integer (splitBytes ((readReg rd s).setWidth 64) (bytesOf w)) = bs)
      (hp : exec plain s = storeReg w (dataAsi s) rd (address rs1 o s) s)
      (hq : exec alt s = alternate false s (storeReg w asi rd (altAddress rs1 rs2 s) s)) : stores plain alt bs :=
    fun i hi => completes_store h hw ha (exec_of_accessForm hi (fun asi a => storeReg w asi rd a s) hp hq) hb
  have whole {bs : List Byte} (hl : bs.length ≠ 8) : orderBytes (isLittle p u) .integer bs = order bs :=
    orderBytes_whole hde p (.inl hl)
  have word : a.toNat % 4 = 0 → stores (.st rd rs1 o) (.sta rd rs1 false asi rs2) (order v) := fun h4 => by
    refine store (w := .word) (aligned_iff.mpr h4) ?_ rfl rfl
    rw [bytesOf, splitBytes_word]
    exact whole (by simp [wordBytes])
  refine ⟨?_, fun h2 => ?_, word, fun h8 he i hi => ?_, fun h4 i hi => ?_⟩
  · refine store (aligned_byte a) ?_ rfl rfl
    rw [bytesOf, splitBytes_byte]
    exact (whole (by simp [wordBytes])).trans (inOrder_singleton ..)
  · refine store (w := .half) (aligned_iff.mpr h2) ?_ rfl rfl
    rw [bytesOf, splitBytes_half]
    exact whole (by simp [wordBytes])
  · refine completes_store h hw (w := .dword) (aligned_iff.mpr h8)
      ((exec_of_accessForm hi (fun asi a => storePair asi rd a s) rfl rfl).trans (storePair_of_even he)) ?_
    rw [bytesOf, splitBytes_words]
    exact orderBytes_words hde p rfl rfl
  · obtain ⟨t, hx, -, hb, hf⟩ := word h4 i hi
    refine ⟨t, hx, fun rd' rs1' rs2' o' asi' a' u' q hq hpa hkept j hj => ?_⟩
    have hde' : u'.psr.de = s.psr.de := (reached_of_reachesIn hq).de_eq.trans ((hf.control rfl).1.trans hde)
    have hb' : Memory.readBytes u'.mem p.pa.toNat 4 = order v :=
      (readBytes_of_byteAt hkept).trans ((congrArg _ (inOrder_length ..).symm).trans hb)
    refine (completes_loadReg hq (exec_of_accessForm hj (fun asi a => loadReg .word lowWord asi rd' a t) rfl rfl)
      (aligned_word_of_target h hq hpa h4) (lowWord_readTarget_of_stored hde' hpa hb')).imp ?_
    exact fun t' ⟨_, hv, _⟩ => hv

/-! ## Atomics -/

section Atomics

variable {i : Instr} {rd : Reg} {asi : Asi} {a : Word} {s u : State} {p : Target} (h : ReachesIn asi .store a s p u)
  (hw : Memory.wf s.mem = true)
include h

/-- What an atomic of `w` bytes makes of the state: the old datum in `rd`, the new one at the target. -/
theorem frame_atomic {w : Width} (ha : aligned w a = true) (v : Word) (d : BitVec 64) :
    Advanced s (advance (writeReg rd v (writeTarget w .integer p d u))) ∧
      Frame { slots := [slot s.psr.cwp rd], bytes := byteRange p.pa.toNat (bytesOf w) } u
        (advance (writeReg rd v (writeTarget w .integer p d u))) := by
  have r := reached_of_reachesIn h
  exact ⟨r.advanced (by simp) (by simp), ((frame_writeTarget ha h rfl _ d).writeReg (by simp [r.psr_eq]) v).advance⟩

include hw

theorem completes_loadStoreByte (hx : exec i s = loadStoreByte asi rd a s) :
    Completes i s fun t => Advanced s t ∧ Holds rd ((byteAt u p.pa 0).setWidth 32) t ∧ byteAt t p.pa 0 = 0xFF ∧
      Frame { slots := [slot s.psr.cwp rd], bytes := byteRange p.pa.toNat 1 } u t := by
  have hde := (reached_of_reachesIn h).de_eq
  obtain ⟨hadv, hf⟩ := frame_atomic (rd := rd) h (aligned_byte a) ((byteAt u p.pa 0).setWidth 32) 0xFF
  have hb : Memory.readBytes (writeTarget .byte .integer p 0xFF u).mem p.pa.toNat 1 = [0xFF] :=
    (readBytes_writeTarget (aligned_byte a) h hw _ _).trans
      ((orderBytes_whole hde p (.inl (by simp [bytesOf]))).trans (inOrder_singleton ..))
  refine ⟨_, ?_, hadv, holds_advance_writeReg .., ?_, hf⟩
  · rw [hx, loadStoreByte, memSwap_of_reachesIn (aligned_byte a) h, andThen_ok, finish_ok, readTarget_byte hde,
      zeroByte_setWidth]
  · rw [byteAt, advance_mem, writeReg_mem]
    exact (List.cons.inj hb).1

theorem completes_swapReg (ha : aligned .word a = true) (hx : exec i s = swapReg asi rd a s) :
    Completes i s fun t => Advanced s t ∧ Holds rd (wordAt s.psr.de u p 0) t ∧
      Memory.readBytes t.mem p.pa.toNat 4 = inOrder s.psr.de p (wordBytes (readReg rd s)) ∧
      Frame { slots := [slot s.psr.cwp rd], bytes := byteRange p.pa.toNat 4 } u t := by
  have hde := (reached_of_reachesIn h).de_eq
  obtain ⟨hadv, hf⟩ := frame_atomic (rd := rd) h ha (wordAt s.psr.de u p 0) ((readReg rd s).setWidth 64)
  have hb := readBytes_writeTarget ha h hw .integer ((readReg rd s).setWidth 64)
  rw [orderBytes_whole hde p (.inl (by simp [bytesOf])), bytesOf, splitBytes_word] at hb
  refine ⟨_, ?_, hadv, holds_advance_writeReg .., ?_, hf⟩
  · rw [hx, swapReg, memSwap_of_reachesIn ha h, andThen_ok, finish_ok, readTarget_word hde, lowWord_setWidth]
  · rw [advance_mem, writeReg_mem]
    exact hb

end Atomics

/-- Settles O42: both forms read and then write at the target of a store. -/
theorem atomicResults : Obligations.AtomicResults := by
  intro rd rs1 rs2 o asi a s u p h hw b big
  refine ⟨fun i hi => ?_, fun h4 i hi => ?_⟩
  · exact completes_loadStoreByte h hw (exec_of_accessForm hi (fun asi a => loadStoreByte asi rd a s) rfl rfl)
  · exact completes_swapReg h hw (aligned_iff.mpr h4) (exec_of_accessForm hi (fun asi a => swapReg asi rd a s) rfl rfl)

end Sys2Proof.Machine
end

section
/-! The floating-point loads and stores where their access finds a target, and STDFQ (41_load_store.md, R395 to R403). -/

namespace Sys2Proof.Spec

open Sys2Proof.Machine

/-! ## Frames -/

section Frames

variable {w : Writes} {s u : State} (h : Frame w s u)
include h

/-- A write of a floating-point register that the frame lists. -/
theorem Frame.writeF {r : Reg} (hr : r ∈ w.fregs) (v : Word) : Frame w s (Machine.writeF r v u) :=
  { h with
    fregs := fun r' hr' =>
      have hne : r' ≠ r := fun e => hr' (e ▸ hr)
      (readF_writeF_of_ne hne v u).trans (h.fregs r' hr') }

theorem Frame.writeD {r : Reg} (he : pairEven r ∈ w.fregs) (ho : pairOdd r ∈ w.fregs) (v : BitVec 64) :
    Frame w s (Machine.writeD r v u) :=
  (h.writeF he _).writeF ho _

theorem Frame.setFsr (hw : w.fsr = true) (r : Fsr) : Frame w s { u with fsr := r } :=
  { h with fsr := fun e => absurd (hw.symm.trans e) (by decide) }

theorem Frame.dequeue (hw : w.queue = true) : Frame w s (Machine.dequeue u) :=
  { h with queue := fun e => absurd (hw.symm.trans e) (by decide) }

end Frames

end Sys2Proof.Spec

namespace Sys2Proof.Machine

open Sys2Proof.Spec

/-! ## The checks (R371, R622) -/

section Gate

variable {w : Width} {a : Word} {s : State} (he : s.psr.ef = true) (ha : aligned w a = true)
include he ha

theorem fpMemGate_of_execute (hm : s.fpMode = .execute) (isStore : Bool) (body : Result) :
    fpMemGate isStore w a s body = body := by
  simp [fpMemGate, he, ha, hm]

/-- A store also goes on in fp_exception mode. -/
theorem fpMemGate_of_store (hm : s.fpMode ≠ .exceptionPending) (body : Result) : fpMemGate true w a s body = body := by
  cases hmode : s.fpMode with
  | execute => exact fpMemGate_of_execute he ha hmode true body
  | exceptionPending => exact absurd hmode hm
  | exception => simp [fpMemGate, he, ha, hmode]

end Gate

/-! ## Loads -/

/-- A floating-point load at its target goes on with what `put` makes of the datum. -/
theorem fpLoad_of_reachesIn {w : Width} {a : Word} {s u : State} {p : Target} (hr : FpReady s) (ha : aligned w a = true)
    (h : ReachesIn (dataAsi s) .load a s p u) (put : BitVec 64 → State → State) :
    fpLoad w put a s = .next (advance (put (readTarget w .float p u) u)) := by
  obtain ⟨he, hm⟩ := hr
  rw [fpLoad, fpMemGate_of_execute he ha hm, memRead_of_reachesIn ha h, andThen_ok, finish_ok]

/-- Settles O58: each form reads its datum at the target, and LDFSR its fields. -/
theorem floatLoads : Obligations.FloatLoads := by
  intro rd rs1 o s u p hr a h b big w
  have r := reached_of_reachesIn h
  have hde := r.de_eq
  have ldf (h4 : a.toNat % 4 = 0) (put : Word → State → State) :
      fpLoad .word (fun d => put (d.extractLsb' 0 32)) a s = .next (advance (put w u)) := by
    have hw : (readTarget .word .float p u).extractLsb' 0 32 = w :=
      (congrArg lowWord (readTarget_word hde p _)).trans (lowWord_setWidth _)
    rw [fpLoad_of_reachesIn hr (aligned_iff.mpr h4) h, hw]
  refine ⟨fun h4 => ⟨?_, ?_⟩, fun h8 => ?_⟩
  · exact ⟨_, ldf h4 (writeF rd), r.advanced rfl rfl, readF_writeF_same rd w u,
      ((Frame.refl _ u).writeF (by simp) w).advance⟩
  · refine ⟨_, ldf h4 fun w t => { t with fsr := fsrLoad w t.fsr }, r.advanced rfl rfl, ?_,
      ((Frame.refl _ u).setFsr rfl _).advance⟩
    show fsrLoad w u.fsr = _
    rw [r.fpu_eq.1]
    rfl
  · refine ⟨_, fpLoad_of_reachesIn hr (aligned_iff.mpr h8) h (writeD rd), r.advanced rfl rfl, ?_,
      ((Frame.refl _ u).writeD (by simp) (by simp) _).advance⟩
    exact (readD_writeD_same rd _ u).trans (readTarget_double hde p)

/-! ## The word of the FSR (R50) -/

theorem ofBool_getLsbD (w : Word) (k : Nat) : BitVec.ofBool (w.getLsbD k) = w.extractLsb' k 1 := by
  apply BitVec.eq_of_getLsbD_eq
  intro i hi
  obtain rfl : i = 0 := by omega
  simp

theorem extractLsb'_extractLsb' {n k m : Nat} (h : k + m ≤ n) (j : Nat) (w : Word) :
    (w.extractLsb' j n).extractLsb' k m = w.extractLsb' (j + k) m := by
  apply BitVec.eq_of_getLsbD_eq
  intro i hi
  simp [hi, show k + i < n by omega, Nat.add_assoc]

/-- A word is the fields of an FSR side by side. -/
theorem fsrFields_append (w : Word) :
    w.extractLsb' 30 2 ++ w.extractLsb' 28 2 ++ w.extractLsb' 23 5 ++ BitVec.ofBool (w.getLsbD 22) ++ w.extractLsb' 20 2 ++
      w.extractLsb' 17 3 ++ w.extractLsb' 14 3 ++ BitVec.ofBool (w.getLsbD 13) ++ BitVec.ofBool (w.getLsbD 12) ++
      w.extractLsb' 10 2 ++ w.extractLsb' 5 5 ++ w.extractLsb' 0 5 = w := by
  simp (disch := decide) only [ofBool_getLsbD, BitVec.extractLsb'_append_extractLsb'_eq_extractLsb']
  exact BitVec.extractLsb'_eq_self

/-- The word of the FSR is the one with its fields, and zeros between them. -/
theorem fsrWord_eq_of_fields {w : Word} {s : State} (hrd : w.extractLsb' 30 2 = s.fsr.rd) (h28 : w.extractLsb' 28 2 = 0)
    (htem : w.extractLsb' 23 5 = s.fsr.tem) (hns : w.getLsbD 22 = s.fsr.ns) (h17 : w.extractLsb' 17 5 = 0)
    (hftt : w.extractLsb' 14 3 = s.fsr.ftt) (hqne : w.getLsbD 13 = true ↔ s.fq ≠ []) (h12 : w.getLsbD 12 = false)
    (hfcc : w.extractLsb' 10 2 = s.fsr.fcc) (haexc : w.extractLsb' 5 5 = s.fsr.aexc)
    (hcexc : w.extractLsb' 0 5 = s.fsr.cexc) : fsrWord s = w := by
  have hqne : w.getLsbD 13 = !s.fq.isEmpty := by
    rw [Bool.eq_iff_iff, hqne]
    simp
  have hlow : w.extractLsb' 17 3 = 0 := by
    rw [← extractLsb'_extractLsb' (k := 0) (n := 5) (by decide), h17]
    rfl
  have hhigh : w.extractLsb' 20 2 = 0 := by
    rw [← extractLsb'_extractLsb' (k := 3) (n := 5) (by decide) 17, h17]
    rfl
  rw [← fsrFields_append w, hrd, h28, htem, hns, hhigh, hlow, hftt, hqne, h12, hfcc, haexc, hcexc]
  rfl

/-! ## Stores -/

section Stores

variable {w : Width} {k : DwordKind} {a : Word} {s u : State} {p : Target} {i : Instr} {d : BitVec 64}
  {after : State → State} {bs : List Byte} (he : s.psr.ef = true) (hm : s.fpMode ≠ .exceptionPending) (hw : Memory.wf s.mem = true)
  (ha : aligned w a = true) (h : ReachesIn (dataAsi s) .store a s p u)
include he hm hw ha h

/-- A floating-point store, also in fp_exception mode: the bytes of its datum stand at the target, and `after` leaves memory
and the program counters. -/
theorem completes_fpStore (hx : exec i s = fpStore w k d after a s)
    (hb : orderBytes (isLittle p u) k (splitBytes d (bytesOf w)) = bs) (f : Writes)
    (hf : f.bytes = byteRange p.pa.toNat (bytesOf w)) (hmem : ∀ t, (after t).mem = t.mem)
    (hnpc : ∀ t, (after t).npc = t.npc) (hafter : ∀ t, Frame f u t → Frame f u (after t)) :
    Completes i s fun t => t = advance (after (writeTarget w k p d u)) ∧ Advanced s t ∧
      Memory.readBytes t.mem p.pa.toNat (bytesOf w) = bs ∧ Frame f u t := by
  refine ⟨_, ?_, rfl, (reached_of_reachesIn h).advanced ?_ ?_, ?_, (hafter _ (frame_writeTarget ha h hf k d)).advance⟩
  · rw [hx, fpStore, fpMemGate_of_store he ha hm, memWrite_of_reachesIn ha h, andThen_ok, finish_ok]
  · rw [advance_pc, hnpc, writeTarget_npc]
  · rw [advance_npc, hnpc, writeTarget_npc]
  · rw [advance_mem, hmem, ← hb]
    exact readBytes_writeTarget ha h hw k d

end Stores

/-- Settles O59: each form stores its datum, and STFSR then clears ftt. -/
theorem floatStores : Obligations.FloatStores := by
  intro rd rs1 o s u p he hm hw a h order stored
  have r := reached_of_reachesIn h
  have whole (bs : List Byte) : orderBytes (isLittle p u) .float bs = order bs := orderBytes_whole r.de_eq p (.inr rfl)
  have word (v : Word) : orderBytes (isLittle p u) .float (splitBytes (v.setWidth 64) 4) = order (wordBytes v) := by
    rw [splitBytes_word, whole]
  refine ⟨fun h4 => ⟨?_, fun w hrd h28 htem hns h17 hftt hqne h12 hfcc haexc hcexc => ?_⟩, fun h8 => ?_⟩
  · have hx : exec (.stf rd rs1 o) s = fpStore .word .float ((readF rd s).setWidth 64) id a s := rfl
    exact (completes_fpStore he hm hw (aligned_iff.mpr h4) h hx (word _) { bytes := byteRange p.pa.toNat 4 } rfl
      (fun _ => rfl) (fun _ => rfl) (fun _ => id)).imp fun t ⟨_, hadv, hb, hf⟩ => ⟨⟨hadv, hb⟩, hf⟩
  · obtain rfl : fsrWord s = w := fsrWord_eq_of_fields hrd h28 htem hns h17 hftt hqne h12 hfcc haexc hcexc
    have hx : exec (.stfsr rd rs1 o) s = fpStore .word .float ((fsrWord s).setWidth 64)
      (fun t => { t with fsr := { t.fsr with ftt := 0 } }) a s := rfl
    refine (completes_fpStore he hm hw (aligned_iff.mpr h4) h hx (word _)
      { fsr := true, bytes := byteRange p.pa.toNat 4 } rfl (fun _ => rfl) (fun _ => rfl) (fun t hf => hf.setFsr rfl _)).imp
      fun t ⟨ht, hadv, hb, hf⟩ => ⟨⟨hadv, hb⟩, ?_, hf⟩
    rw [ht, ← r.fpu_eq.1]
    rfl
  · have hx : exec (.stdf rd rs1 o) s = fpStore .dword .float (readD rd s) id a s := rfl
    have hb := (congrArg _ (splitBytes_words (readF (pairEven rd) s) (readF (pairOdd rd) s))).trans (whole _)
    exact (completes_fpStore he hm hw (aligned_iff.mpr h8) h hx hb { bytes := byteRange p.pa.toNat 8 } rfl
      (fun _ => rfl) (fun _ => rfl) (fun _ => id)).imp fun t ⟨_, hadv, hb, hf⟩ => ⟨⟨hadv, hb⟩, hf⟩

/-! ## STDFQ (R403, R622, R623) -/

/-- The queue without its front entry, and the mode that leaves. -/
theorem dequeue_fpMode {s : State} {e : Word × Word} {rest : List (Word × Word)} (h : s.fq = e :: rest) :
    (dequeue s).fpMode = if rest = [] then .execute else s.fpMode := by
  simp [dequeue, h]

theorem sequenceError_of_empty {s : State} (hq : s.fq = []) (he : s.psr.et = true) :
    sequenceError s = .next (takeTrap ttFpException { s with fsr := { s.fsr with ftt := 4 }, fpMode := .execute }) := by
  rw [sequenceError, takeTrapWith_of_et he, hq]
  rfl

section Stdfq

variable (rd rs1 : Reg) (o : Opnd2) {s : State} (hs : s.psr.s = true)
include hs

theorem stdfq_of_entry {addr w : Word} {rest : List (Word × Word)} (hq : s.fq = (addr, w) :: rest) :
    exec (.stdfq rd rs1 o) s = fpStore .dword .integer (addr ++ w) dequeue (address rs1 o s) s := by
  show execStdfq rd rs1 o s = _
  rw [execStdfq, privileged_of_supervisor hs, hq]

theorem stdfq_of_empty (hq : s.fq = []) :
    exec (.stdfq rd rs1 o) s = fpMemGate true .dword (address rs1 o s) s (sequenceError s) := by
  show execStdfq rd rs1 o s = _
  rw [execStdfq, privileged_of_supervisor hs, hq]

end Stdfq

/-- Settles O60, by the cases of the queue. -/
theorem stdfqDequeues : Obligations.StdfqDequeues := by
  intro rd rs1 o s hs he hm a h8
  have ha : aligned .dword a = true := aligned_iff.mpr h8
  refine ⟨fun u p addr w rest hq hw h => ?_, fun hq het => ?_⟩
  · intro order
    have r := reached_of_reachesIn h
    obtain ⟨-, hfq, hmode⟩ := r.fpu_eq
    have hx : exec (.stdfq rd rs1 o) s = fpStore .dword .integer (addr ++ w) dequeue a s := stdfq_of_entry rd rs1 o hs hq
    have hb := (congrArg _ (splitBytes_words addr w)).trans (orderBytes_words r.de_eq p rfl rfl)
    refine (completes_fpStore he hm hw ha h hx hb { queue := true, bytes := byteRange p.pa.toNat 8 } rfl (fun _ => rfl)
      (fun _ => rfl) (fun t hf => hf.dequeue rfl)).imp ?_
    rintro t ⟨rfl, hadv, hb, hf⟩
    have hfq' : (writeTarget .dword .integer p (addr ++ w) u).fq = (addr, w) :: rest := hfq.trans hq
    refine ⟨hadv, hb, congrArg List.tail hfq', ?_, hf⟩
    rw [advance_fpMode, dequeue_fpMode hfq', writeTarget_fpMode, hmode]
  · have hx : exec (.stdfq rd rs1 o) s = fpMemGate true .dword a s (sequenceError s) := stdfq_of_empty rd rs1 o hs hq
    rw [fpMemGate_of_store he ha hm, sequenceError_of_empty hq het] at hx
    exact ⟨_, hx, takeTrap_trapped .., by rw [takeTrap_tbr]; rfl, takeTrap_fsr .., takeTrap_fpMode ..,
      fun c => by rw [takeTrap_mem]⟩

end Sys2Proof.Machine
end

section
/-! Transfers of control: the program counters they set and the frame they keep (42_control_transfer_and_windows.md, R440
to R443, R465). -/

namespace Sys2Proof.Spec

open Sys2Proof.Machine

/-! ## Frames -/

section Frames

variable {w : Writes} {s u : State} (h : Frame w s u)
include h

theorem Frame.transfer (k : Bool) (pc npc : Word) : Frame w s (Machine.transfer k pc npc u) := by
  rw [transfer_only]
  exact { h with }

theorem Frame.jump (k : Bool) (t : Word) : Frame w s (Machine.jump k t u) := h.transfer k u.npc t

theorem Frame.setCwp (hc : w.cwp = true) (v : BitVec 3) : Frame w s { u with psr := { u.psr with cwp := v } } :=
  { h with cwp := fun e => absurd (hc.symm.trans e) (by decide) }

theorem Frame.returnFromTrap (hm : w.mode = true) (hc : w.cwp = true) (t : Word) :
    Frame w s (Machine.returnFromTrap t u) :=
  Frame.jump (u := { u with psr := { u.psr with et := true, cwp := u.psr.cwp + 1, s := u.psr.ps } })
    { h with
      mode := fun e => absurd (hm.symm.trans e) (by decide)
      cwp := fun e => absurd (hc.symm.trans e) (by decide) } false t

end Frames

/-! ## Program counters -/

/-- Log 3: after a taken conditional branch the counters are free word addresses, and else those of the transfer. -/
theorem transferred_transfer {s u : State} (hc : u.condTaken = s.condTaken) (k : Bool) (pc npc : Word) :
    Transferred pc npc s (transfer k pc npc u) := by
  unfold transfer
  rw [hc]
  refine ⟨fun h => ?_, fun h => ?_⟩
  · simp [h]
  · simp [h, AlignedWord, freePc_aligned]

/-- A delayed transfer from a state that has the delay instruction and the mark of `s`. -/
theorem transferred_jump {s u : State} (hn : u.npc = s.npc) (hc : u.condTaken = s.condTaken) (k : Bool) (t : Word) :
    Transferred s.npc t s (jump k t u) :=
  hn ▸ transferred_transfer hc k u.npc t

theorem transferred_returnFromTrap (t : Word) (s : State) : Transferred s.npc t s (Machine.returnFromTrap t s) :=
  transferred_jump (s := s) (u := { s with psr := { s.psr with et := true, cwp := s.psr.cwp + 1, s := s.psr.ps } })
    rfl rfl false t

end Sys2Proof.Spec

namespace Sys2Proof.Machine

open Sys2Proof.Spec

/-! ## Targets -/

theorem branchTarget_eq (disp22 : BitVec 22) (s : State) :
    branchTarget disp22 s = s.pc + disp22.signExtend 32 * 4 := by
  rw [branchTarget, BitVec.shiftLeft_eq_mul_twoPow]
  rfl

theorem callTarget_eq (disp30 : BitVec 30) (s : State) : callTarget disp30 s = s.pc + disp30.setWidth 32 * 4 := by
  have hfour : (4 : Word).toNat = 4 := rfl
  have := disp30.isLt
  refine congrArg (s.pc + ·) (BitVec.eq_of_toNat_eq ?_)
  rw [toNat_append_eq, BitVec.toNat_mul, BitVec.toNat_setWidth, hfour, BitVec.toNat_ofNat]
  omega

/-! ## CALL and JMPL -/

/-- The link: `x[rd]` takes the address of the instruction before its transfer. -/
theorem completes_link {i : Instr} {rd : Reg} {t : Word} {s : State}
    (h : exec i s = .next (jump false t (writeReg rd s.pc s))) :
    Completes i s fun u => Transferred s.npc t s u ∧ Holds rd s.pc u ∧ Frame { slots := [slot s.psr.cwp rd] } s u := by
  refine ⟨_, h, transferred_jump (by simp) (by simp) false t, ?_, (frame_writeReg (by simp) s.pc).jump false t⟩
  rw [Holds, readReg, jump_psr, readRegIn_congr (jump_globals ..) (jump_windows ..)]
  exact readReg_writeReg_same rd s.pc s

section Jmpl

variable {rd rs1 : Reg} {o : Opnd2} {s : State}

theorem exec_jmpl_of_aligned (h : (address rs1 o s).toNat % 4 = 0) :
    exec (.jmpl rd rs1 o) s = .next (jump false (address rs1 o s) (writeReg rd s.pc s)) :=
  if_neg (not_not.mpr ((alignedWord_iff _).mpr h))

theorem exec_jmpl_of_misaligned (h : (address rs1 o s).toNat % 4 ≠ 0) :
    exec (.jmpl rd rs1 o) s = .next (takeTrap ttNotAligned s) :=
  if_pos (mt (alignedWord_iff _).mp h)

end Jmpl

/-- Settles O24: both instructions are a write of the link and a jump, unless a JMPL is misaligned. -/
theorem callAndJump : Obligations.CallAndJump := by
  intro disp30 rd rs1 o s t0
  refine ⟨?_, fun h => completes_link (exec_jmpl_of_aligned h), exec_jmpl_of_misaligned⟩
  rw [← callTarget_eq]
  exact completes_link (i := .call disp30) (rd := 15) rfl

/-! ## RETT -/

@[simp] theorem returnFromTrap_psr (t : Word) (s : State) :
    (returnFromTrap t s).psr = { s.psr with et := true, cwp := s.psr.cwp + 1, s := s.psr.ps } := jump_psr ..

namespace Rett

section Checks

variable {rs1 : Reg} {o : Opnd2} {s : State}

theorem traps_of_user (hs : s.psr.s = false) : Traps (.rett rs1 o) 0x03 s := if_pos hs

variable (hs : s.psr.s = true)
include hs

/-- The privilege is there: the check of ET is next. -/
theorem exec_of_supervisor : exec (.rett rs1 o) s =
    if s.psr.et then .next (takeTrap ttIllegal s)
    else if s.wim.getLsbD (s.psr.cwp + 1).toNat then .next (takeTrap ttWindowUnderflow s)
    else if (address rs1 o s).extractLsb' 0 2 ≠ 0 then .next (takeTrap ttNotAligned s)
    else .next (returnFromTrap (address rs1 o s) s) :=
  if_neg (by simp [hs])

theorem traps_of_et (he : s.psr.et = true) : Traps (.rett rs1 o) 0x02 s := (exec_of_supervisor hs).trans (if_pos he)

variable (he : s.psr.et = false)
include he

/-- ET is 0: the check of the window is next. -/
theorem exec_of_not_et : exec (.rett rs1 o) s =
    if s.wim.getLsbD (s.psr.cwp + 1).toNat then .next (takeTrap ttWindowUnderflow s)
    else if (address rs1 o s).extractLsb' 0 2 ≠ 0 then .next (takeTrap ttNotAligned s)
    else .next (returnFromTrap (address rs1 o s) s) :=
  (exec_of_supervisor hs).trans (if_neg (by simp [he]))

theorem traps_of_invalid (hw : s.wim.getLsbD (s.psr.cwp + 1).toNat = true) : Traps (.rett rs1 o) 0x06 s :=
  (exec_of_not_et hs he).trans (if_pos hw)

variable (hw : ¬ s.wim.getLsbD (s.psr.cwp + 1).toNat = true)
include hw

theorem traps_of_misaligned (ha : (address rs1 o s).toNat % 4 ≠ 0) : Traps (.rett rs1 o) 0x07 s :=
  (exec_of_not_et hs he).trans ((if_neg hw).trans (if_pos (mt (alignedWord_iff _).mp ha)))

theorem exec_of_aligned (ha : (address rs1 o s).toNat % 4 = 0) :
    exec (.rett rs1 o) s = .next (returnFromTrap (address rs1 o s) s) :=
  (exec_of_not_et hs he).trans ((if_neg hw).trans (if_neg (not_not.mpr ((alignedWord_iff _).mpr ha))))

end Checks

/-- Settles O25, one check after the other. -/
theorem returnFromTrap : Obligations.ReturnFromTrap := by
  intro rs1 o s t0 invalid
  refine ⟨fun _ => traps_of_user, fun he hs => traps_of_et hs he, fun _ => traps_of_user,
    fun he hs => traps_of_invalid hs he, fun he hs => traps_of_misaligned hs he, fun he hs hw ha => ?_⟩
  exact ⟨_, exec_of_aligned hs he hw ha, transferred_returnFromTrap t0 s, by simp, by simp, by simp, by simp,
    (Frame.refl _ s).returnFromTrap rfl rfl t0⟩

end Rett

/-! ## SAVE and RESTORE -/

/-- SAVE and RESTORE to window `w`, with trap `tt`. -/
theorem moveWindow_outcomes {i : Instr} {w : BitVec 3} {tt : TrapType} {rd rs1 : Reg} {o : Opnd2} {s : State}
    (hi : exec i s = moveWindow w tt rd rs1 o s) :
    (s.wim.getLsbD w.toNat = true → Traps i tt s) ∧
    (s.wim.getLsbD w.toNat = false → Completes i s fun t =>
      Advanced s t ∧ t.psr.cwp = w ∧ Holds rd (address rs1 o s) t ∧
        Frame { slots := [slot w rd], cwp := true } s t) := by
  refine ⟨fun h => hi.trans (if_pos h), fun h => ?_⟩
  have hf : Frame { slots := [slot w rd], cwp := true } s { s with psr := { s.psr with cwp := w } } :=
    (Frame.refl _ s).setCwp rfl w
  exact ⟨_, hi.trans (if_neg (by simp [h])), ⟨by simp, by simp⟩, by simp, holds_advance_writeReg ..,
    (hf.writeReg (by simp) _).advance⟩

/-- Settles O26: both are a move to their window. -/
theorem saveAndRestore : Obligations.SaveAndRestore := by
  intro rd rs1 o s v p hp
  simp only [List.mem_cons, List.not_mem_nil, or_false] at hp
  obtain rfl | rfl := hp
  all_goals exact moveWindow_outcomes rfl

end Sys2Proof.Machine
end

section
/-! The branches and traps on conditions: the tests of R243 and R244, what a branch does where its test holds and where it
does not (R441, R442), and the trap of a Ticc (R485). -/

namespace Sys2Proof.Machine

open Sys2Proof.Spec

/-! ## The tests on icc (R243) -/

section Tests

variable (p : Psr)

theorem testL_iff : testL p = true ↔ p.n ≠ p.v := bne_iff_ne

theorem testLe_iff : testLe p = true ↔ p.z = true ∨ p.n ≠ p.v := by
  rw [testLe, Bool.or_eq_true, bne_iff_ne]

theorem testLeu_iff : testLeu p = true ↔ p.c = true ∨ p.z = true := Bool.or_eq_true_iff

/-- A complementary test holds where its own does not. -/
theorem not_test_iff {b : Bool} {P : Prop} (h : b = true ↔ P) : (!b) = true ↔ ¬ P := by
  rw [← h, Bool.not_eq_true', Bool.not_eq_true]

theorem testNe_iff : testNe p = true ↔ ¬ p.z = true := not_test_iff Iff.rfl

theorem testG_iff : testG p = true ↔ ¬ (p.z = true ∨ p.n ≠ p.v) := not_test_iff (testLe_iff p)

theorem testGe_iff : testGe p = true ↔ ¬ p.n ≠ p.v := not_test_iff (testL_iff p)

theorem testGu_iff : testGu p = true ↔ ¬ (p.c = true ∨ p.z = true) := not_test_iff (testLeu_iff p)

theorem testCc_iff : testCc p = true ↔ ¬ p.c = true := not_test_iff Iff.rfl

theorem testPos_iff : testPos p = true ↔ ¬ p.n = true := not_test_iff Iff.rfl

theorem testVc_iff : testVc p = true ↔ ¬ p.v = true := not_test_iff Iff.rfl

end Tests

/-! ## Branches (R441, R442) -/

/-- What a branch on `test` leaves of `s` in `t`. -/
def Branched (test : Prop) (a : Bool) (disp22 : BitVec 22) (s t : State) : Prop :=
  Frame {} s t ∧
    (test → Transferred s.npc (s.pc + disp22.signExtend 32 * 4) s t ∧ t.condTaken = true) ∧
    (¬ test → a = false → Advanced s t) ∧ (¬ test → a = true → t.pc = s.npc + 4 ∧ t.npc = s.npc + 8)

/-- What an always taken branch leaves of `s` in `t`. -/
def BranchedAlways (a : Bool) (disp22 : BitVec 22) (s t : State) : Prop :=
  Frame {} s t ∧
    (a = false → Transferred s.npc (s.pc + disp22.signExtend 32 * 4) s t) ∧
    (a = true → Transferred (s.pc + disp22.signExtend 32 * 4) (s.pc + disp22.signExtend 32 * 4 + 4) s t)

theorem branched_branchIf {taken : Bool} {test : Prop} (h : taken = true ↔ test) (a : Bool) (disp22 : BitVec 22)
    (s : State) : Branched test a disp22 s (branchIf taken a disp22 s) := by
  unfold branchIf Branched
  rw [← h, ← branchTarget_eq]
  split_ifs with ht ha
  · exact ⟨(Frame.refl _ s).jump true _, fun _ => ⟨transferred_jump rfl rfl true _, jump_condTaken ..⟩,
      fun hn => absurd ht hn, fun hn => absurd ht hn⟩
  · exact ⟨{ Frame.refl {} s with }, fun h => absurd h ht, fun _ h => absurd (ha.symm.trans h) (by decide),
      fun _ _ => ⟨rfl, rfl⟩⟩
  · exact ⟨(Frame.refl _ s).advance, fun h => absurd h ht, fun _ _ => ⟨rfl, rfl⟩, fun _ h => absurd h ha⟩

theorem branchedAlways_branchAlways (a : Bool) (disp22 : BitVec 22) (s : State) :
    BranchedAlways a disp22 s (branchAlways a disp22 s) := by
  unfold branchAlways BranchedAlways
  rw [← branchTarget_eq]
  cases a with
  | false => exact ⟨(Frame.refl _ s).jump false _, fun _ => transferred_jump rfl rfl false _, nofun⟩
  | true => exact ⟨(Frame.refl _ s).transfer false _ _, nofun, fun _ => transferred_transfer rfl false _ _⟩

section Completes

variable {i : Instr} {a : Bool} {disp22 : BitVec 22} {s : State}

theorem completes_branchIf {taken : Bool} {test : Prop} (h : taken = true ↔ test)
    (hi : exec i s = .next (branchIf taken a disp22 s)) : Completes i s (Branched test a disp22 s) :=
  ⟨_, hi, branched_branchIf h a disp22 s⟩

/-- A branch on fcc whose relations `l` are those with the numbers `ns`. -/
theorem completes_fccBranch (hr : FpReady s) {l : List (BitVec 2)} {ns : List Nat}
    (h : ∀ f : BitVec 2, l.contains f = true ↔ f.toNat ∈ ns)
    (hi : exec i s = fpGate s (.next (branchIf (fccIn l s) a disp22 s))) :
    Completes i s (Branched (s.fsr.fcc.toNat ∈ ns) a disp22 s) :=
  completes_branchIf (h s.fsr.fcc) (hi.trans (fpGate_of_ready hr.1 hr.2 _))

end Completes

/-- Settles O22: each branch is `branchIf` of its test, and BA is `branchAlways`. -/
theorem integerBranches : Obligations.IntegerBranches := by
  intro a disp22 s t0 less
  refine ⟨?_, _, rfl, branchedAlways_branchAlways a disp22 s⟩
  simp only [List.forall_mem_cons]
  exact ⟨completes_branchIf Iff.rfl rfl, completes_branchIf (testLe_iff _) rfl, completes_branchIf (testL_iff _) rfl,
    completes_branchIf (testLeu_iff _) rfl, completes_branchIf Iff.rfl rfl, completes_branchIf Iff.rfl rfl,
    completes_branchIf Iff.rfl rfl, completes_branchIf (testNe_iff _) rfl, completes_branchIf (testG_iff _) rfl,
    completes_branchIf (testGe_iff _) rfl, completes_branchIf (testGu_iff _) rfl, completes_branchIf (testCc_iff _) rfl,
    completes_branchIf (testPos_iff _) rfl, completes_branchIf (testVc_iff _) rfl,
    completes_branchIf (taken := false) (by decide) rfl, List.forall_mem_nil _⟩

/-- Settles O23, as O22 behind the gate of the FPU, which is open. -/
theorem floatBranches : Obligations.FloatBranches := by
  intro a disp22 s hr t0 f
  refine ⟨?_, _, fpGate_of_ready hr.1 hr.2 _, branchedAlways_branchAlways a disp22 s⟩
  simp only [List.forall_mem_cons]
  refine ⟨completes_fccBranch hr (l := []) (by decide) rfl, ?_, ?_, ?_, ?_, ?_, ?_, ?_, ?_, ?_, ?_, ?_, ?_, ?_, ?_,
    List.forall_mem_nil _⟩ <;> exact completes_fccBranch hr (by decide) rfl

/-! ## Ticc (R485) -/

section TrapNumber

variable (rs1 : Reg) (s : State)

/-- The low seven bits of the sum of two registers. -/
theorem trapNumber_reg_toNat (rs2 : Reg) :
    (trapNumber rs1 (.reg rs2) s).toNat = ((readReg rs1 s).toNat + (readReg rs2 s).toNat) % 128 := by
  rw [trapNumber, BitVec.extractLsb'_toNat, BitVec.toNat_add]
  omega

/-- The low seven bits of the sum with an immediate do not depend on the higher bits of the register. -/
theorem trapNumber_imm_toNat (imm7 : BitVec 7) :
    (trapNumber rs1 (.imm imm7) s).toNat = ((readReg rs1 s).toNat + imm7.toNat) % 128 := by
  rw [trapNumber, BitVec.toNat_add, BitVec.extractLsb'_toNat]
  omega

end TrapNumber

/-- A Ticc on `test`: the trap `tt`, or nothing but the next instruction. -/
theorem trapIf_outcomes {i : Instr} {rs1 : Reg} {n : TrapNum} {s : State} {tt : TrapType} {taken : Bool} {test : Prop}
    (htt : tt = 1#1 ++ trapNumber rs1 n s) (h : taken = true ↔ test) (hi : exec i s = trapIf taken rs1 n s) :
    (test → Traps i tt s) ∧ (¬ test → Completes i s fun t => Advanced s t ∧ Frame {} s t) := by
  rw [← h, htt]
  exact ⟨fun ht => hi.trans (if_pos ht),
    fun ht => ⟨_, hi.trans (if_neg ht), ⟨rfl, rfl⟩, (Frame.refl {} s).advance⟩⟩

/-- Settles O28, with the tests of O22. -/
theorem trapOnCondition : Obligations.TrapOnCondition := by
  intro rs1 n s tt less b h
  have htt : tt = 1#1 ++ trapNumber rs1 n s :=
    BitVec.eq_of_toNat_eq <| h.trans <| by
      rw [toNat_append_eq]
      cases n with
      | reg rs2 => exact congrArg (0x80 + ·) (trapNumber_reg_toNat rs1 s rs2).symm
      | imm imm7 => exact congrArg (0x80 + ·) (trapNumber_imm_toNat rs1 s imm7).symm
  simp only [List.forall_mem_cons]
  exact ⟨trapIf_outcomes (taken := false) htt (by decide) rfl, trapIf_outcomes htt Iff.rfl rfl,
    trapIf_outcomes htt (testLe_iff _) rfl, trapIf_outcomes htt (testL_iff _) rfl, trapIf_outcomes htt (testLeu_iff _) rfl,
    trapIf_outcomes htt Iff.rfl rfl, trapIf_outcomes htt Iff.rfl rfl, trapIf_outcomes htt Iff.rfl rfl,
    trapIf_outcomes (taken := true) htt (by decide) rfl, trapIf_outcomes htt (testNe_iff _) rfl,
    trapIf_outcomes htt (testG_iff _) rfl, trapIf_outcomes htt (testGe_iff _) rfl, trapIf_outcomes htt (testGu_iff _) rfl,
    trapIf_outcomes htt (testCc_iff _) rfl, trapIf_outcomes htt (testPos_iff _) rfl, trapIf_outcomes htt (testVc_iff _) rfl,
    List.forall_mem_nil _⟩

/-! ## Coprocessor instructions (R462, R463, R420 to R426, D22) -/

theorem traps_of_coprocessorTrap {i : Instr} {s : State} (h : exec i s = coprocessorTrap s) : Traps i 0x24 s := h

/-- Settles O29: each instruction is the one trap, which STDCQ takes behind the test of its privilege. -/
theorem coprocessorDisabled : Obligations.CoprocessorDisabled := by
  intro a disp22 rd rs1 rs2 opc o s
  refine ⟨?_, fun hs => traps_of_coprocessorTrap (privileged_of_supervisor hs _), fun hs => privileged_of_user hs _⟩
  simp only [List.forall_mem_cons]
  refine ⟨?_, ?_, ?_, ?_, ?_, ?_, ?_, ?_, ?_, ?_, ?_, ?_, ?_, ?_, ?_, ?_, ?_, ?_, ?_, ?_, ?_, ?_, ?_, ?_,
    List.forall_mem_nil _⟩ <;> exact traps_of_coprocessorTrap rfl

end Sys2Proof.Machine
end

section
/-! The encodings that name no instruction (R246, R542): what the decoder answers, and the trap of a step that fetches one. -/

namespace Sys2Proof

/-- The `op3` values that have rows of their own with `op` = 3 (R241). -/
def memoryAllocated : List (BitVec 6) :=
  [0x00, 0x01, 0x02, 0x03, 0x04, 0x05, 0x06, 0x07, 0x09, 0x0A, 0x0D, 0x0F, 0x10, 0x11, 0x12, 0x13, 0x14, 0x15, 0x16, 0x17,
   0x19, 0x1A, 0x1D, 0x1F, 0x20, 0x21, 0x23, 0x24, 0x25, 0x26, 0x27, 0x30, 0x31, 0x33, 0x34, 0x35, 0x36, 0x37]

section Unallocated

variable {w : Word}

theorem decodeFormat2_of_unallocated (h : fieldOp2 w ∈ ([1, 3, 5] : List (BitVec 3))) :
    decodeFormat2 w = .error .unallocatedFormat2 := by
  simp only [List.mem_cons, List.not_mem_nil, or_false] at h
  unfold decodeFormat2
  rcases h with h | h | h <;> rw [h] <;> rfl

theorem decodeArith_of_unallocated
    (h : fieldOp3 w ∈ ([0x09, 0x0D, 0x19, 0x1D, 0x2C, 0x2D, 0x2E, 0x2F, 0x3E, 0x3F] : List (BitVec 6))) :
    decodeArith w = .error .unallocatedArith := by
  simp only [List.mem_cons, List.not_mem_nil, or_false] at h
  unfold decodeArith
  rcases h with h | h | h | h | h | h | h | h | h | h <;> rw [h] <;> rfl

/-- The last arm of the decoder of `op` = 3 is for the `op3` values without a row: each other arm is for one value of the
list. -/
theorem decodeMemory_of_unallocated (h : fieldOp3 w ∉ memoryAllocated) : decodeMemory w = .error .unallocatedMemory := by
  have hn : (fieldOp3 w).toNat ∉ memoryAllocated.map BitVec.toNat := by
    intro hm
    obtain ⟨op3, hmem, heq⟩ := List.mem_map.mp hm
    exact h (BitVec.toNat_inj.mp heq ▸ hmem)
  unfold decodeMemory
  split
  case h_39 => rfl
  all_goals
    next hk => exact absurd (by rw [hk]; decide) hn

theorem decodeFields_of_op_zero (h : fieldOp w = 0) : decodeFields w = decodeFormat2 w := by
  rw [decodeFields, h]; rfl

theorem decodeFields_of_op_two (h : fieldOp w = 2) : decodeFields w = decodeArith w := by
  rw [decodeFields, h]; rfl

theorem decodeFields_of_op_three (h : fieldOp w = 3) : decodeFields w = decodeMemory w := by
  rw [decodeFields, h]; rfl

/-- Where the defining fields name no instruction, the reserved bits are not looked at. -/
theorem decodeWord_of_fields_error {e : DecodeError} (h : decodeFields w = .error e) : decodeWord w = .error e := by
  rw [decodeWord, h]

end Unallocated

namespace Machine

theorem runInstruction_of_unallocated {s t : State} {pa : PAddr} {e : DecodeError} (h : fetchTarget s = .ok pa t)
    (hd : decodeWord (fetchWord pa t).1 = .error e) (he : e ≠ .reservedBits) :
    runInstruction s = .next (takeTrapWith ttIllegal s (fetchWord pa t).2) := by
  cases e with
  | reservedBits => exact absurd rfl he
  | truncated | unallocatedFormat2 | unallocatedArith | unallocatedMemory => simp only [runInstruction, h, hd]

/-- Settles O4: in each of the three groups the decoder answers the error of its format. -/
theorem unallocatedEncodingsTrap : Obligations.UnallocatedEncodingsTrap := by
  intro w hw
  have hd : ∃ e, decodeWord w = .error e ∧ e ≠ .reservedBits := by
    rcases hw with ⟨ho, h⟩ | ⟨ho, h⟩ | ⟨ho, h⟩
    · exact ⟨_, decodeWord_of_fields_error ((decodeFields_of_op_zero ho).trans (decodeFormat2_of_unallocated h)), nofun⟩
    · exact ⟨_, decodeWord_of_fields_error ((decodeFields_of_op_two ho).trans (decodeArith_of_unallocated h)), nofun⟩
    · exact ⟨_, decodeWord_of_fields_error ((decodeFields_of_op_three ho).trans (decodeMemory_of_unallocated h)), nofun⟩
  refine ⟨hd, fun s t pa hf hword => ?_⟩
  obtain ⟨e, he, hne⟩ := hd
  exact runInstruction_of_unallocated hf (hword ▸ he) hne

end Machine

end Sys2Proof
end

section
/-! The instructions that read and write the state registers (43_state_register_and_system.md, R520 to R534): the word of the
PSR field by field, what a write leaves unchanged, and the instructions that only trap (R521, R530, R541). -/

namespace Sys2Proof.Spec

open Sys2Proof.Machine

/-! ## Frames -/

section Frames

variable {w : Writes} {s u : State} (h : Frame w s u)
include h

theorem Frame.setPsr (hi : w.icc = true) (hc : w.cwp = true) (hm : w.mode = true) (hk : w.control = true) (p : Psr) :
    Frame w s { u with psr := p } :=
  { h with
    icc := fun e => absurd (hi.symm.trans e) (by decide)
    cwp := fun e => absurd (hc.symm.trans e) (by decide)
    mode := fun e => absurd (hm.symm.trans e) (by decide)
    control := fun e => absurd (hk.symm.trans e) (by decide) }

theorem Frame.setWim (hw : w.wim = true) (v : BitVec 8) : Frame w s { u with wim := v } :=
  { h with wim := fun e => absurd (hw.symm.trans e) (by decide) }

theorem Frame.setTba (hw : w.tba = true) (v : BitVec 20) : Frame w s { u with tbr := { u.tbr with tba := v } } :=
  { h with tba := fun e => absurd (hw.symm.trans e) (by decide) }

theorem Frame.setStale (hw : w.stale = true) (l : List Stale) : Frame w s { u with stale := l } :=
  { h with
    stale := fun e => absurd (hw.symm.trans e) (by decide)
    replaced := fun e => absurd (hw.symm.trans e) (by decide) }

end Frames

end Sys2Proof.Spec

namespace Sys2Proof.Machine

open Sys2Proof.Spec

/-! ## The word of the PSR (R38, R39, R44) -/

theorem getLsbD_of_extractLsb' {w : Word} {k : Nat} {b : Bool} (h : w.extractLsb' k 1 = BitVec.ofBool b) :
    w.getLsbD k = b :=
  BitVec.ofBool_eq_iff_eq.mp ((ofBool_getLsbD w k).trans h)

/-- R38: each field of `p` stands in its place in `v`. -/
def PsrFields (p : Psr) (v : Word) : Prop :=
  v.extractLsb' 24 8 = 0x40 ∧ v.getLsbD 23 = p.n ∧ v.getLsbD 22 = p.z ∧ v.getLsbD 21 = p.v ∧ v.getLsbD 20 = p.c ∧
    v.extractLsb' 16 4 = 0 ∧ v.getLsbD 15 = p.de ∧ v.getLsbD 14 = false ∧ v.getLsbD 13 = p.ec ∧ v.getLsbD 12 = p.ef ∧
    v.extractLsb' 8 4 = p.pil ∧ v.getLsbD 7 = p.s ∧ v.getLsbD 6 = p.ps ∧ v.getLsbD 5 = p.et ∧ v.extractLsb' 3 2 = 0 ∧
    v.extractLsb' 0 3 = p.cwp

theorem psrFields_psrWord (p : Psr) : PsrFields p (psrWord p) := by
  refine ⟨?_, getLsbD_of_extractLsb' ?_, getLsbD_of_extractLsb' ?_, getLsbD_of_extractLsb' ?_, getLsbD_of_extractLsb' ?_,
    ?_, getLsbD_of_extractLsb' ?_, getLsbD_of_extractLsb' (b := false) ?_, getLsbD_of_extractLsb' ?_,
    getLsbD_of_extractLsb' ?_, ?_, getLsbD_of_extractLsb' ?_, getLsbD_of_extractLsb' ?_, getLsbD_of_extractLsb' ?_, ?_,
    ?_⟩ <;>
    simp (disch := decide) only [psrWord, BitVec.extractLsb'_append_eq_of_le, BitVec.extractLsb'_append_eq_of_add_le] <;>
    exact BitVec.extractLsb'_eq_self

/-- A word is the fields of a PSR side by side. -/
theorem psrFields_append (w : Word) :
    w.extractLsb' 24 8 ++ w.extractLsb' 23 1 ++ w.extractLsb' 22 1 ++ w.extractLsb' 21 1 ++ w.extractLsb' 20 1 ++
      w.extractLsb' 16 4 ++ w.extractLsb' 15 1 ++ w.extractLsb' 14 1 ++ w.extractLsb' 13 1 ++ w.extractLsb' 12 1 ++
      w.extractLsb' 8 4 ++ w.extractLsb' 7 1 ++ w.extractLsb' 6 1 ++ w.extractLsb' 5 1 ++ w.extractLsb' 3 2 ++
      w.extractLsb' 0 3 = w := by
  simp (disch := decide) only [BitVec.extractLsb'_append_extractLsb'_eq_extractLsb']
  exact BitVec.extractLsb'_eq_self

/-- R531: a write of the PSR takes the bits of the writable fields and leaves the fixed ones. -/
theorem psrWord_psrOfWord (w : Word) : psrWord (psrOfWord w) = (w &&& 0x00F0BFE7) ||| 0x40000000 := by
  have hbit (x : BitVec 1) : x &&& 1#1 = x := BitVec.and_allOnes
  have hcwp (x : BitVec 3) : x &&& 7#3 = x := BitVec.and_allOnes
  have hpil (x : BitVec 4) : x &&& 15#4 = x := BitVec.and_allOnes
  rw [← psrFields_append ((w &&& 0x00F0BFE7) ||| 0x40000000)]
  simp only [BitVec.extractLsb'_or, BitVec.extractLsb'_and, psrWord, psrOfWord, ofBool_getLsbD]
  simp [hbit, hcwp, hpil]

/-! ## Reads -/

/-- Settles O30: each read is one write of `x[rd]`, behind the test of its privilege for all but RDY. -/
theorem stateRegisterReads : Obligations.StateRegisterReads := by
  intro rd o s w
  refine ⟨completes_result rfl, fun hs => ⟨⟨psrWord s.psr, ?_, psrFields_psrWord s.psr⟩, ?_, ?_⟩⟩
  · exact completes_result (privileged_of_supervisor hs _)
  · have hword : s.wim.setWidth 32 = 0#24 ++ s.wim := BitVec.setWidth_eq_append (by decide)
    exact hword ▸ completes_result (privileged_of_supervisor hs _)
  · exact completes_result (privileged_of_supervisor hs _)

/-! ## Writes -/

section Wrpsr

variable {rs1 : Reg} {o : Opnd2} {s : State} (hs : s.psr.s = true)
include hs

/-- The privilege is there: the check of the window is next. -/
theorem exec_wrpsr_of_supervisor : exec (.wrpsr rs1 o) s =
    if 8 ≤ (writeValue rs1 o s).toNat % 32 then .next (takeTrap ttIllegal s)
    else .next (advance { s with psr := psrOfWord (writeValue rs1 o s) }) := by
  have hcwp : ((writeValue rs1 o s).extractLsb' 0 5).toNat = (writeValue rs1 o s).toNat % 32 := BitVec.extractLsb'_toNat ..
  rw [← hcwp]
  exact privileged_of_supervisor hs _

theorem wrpsr_completes (h : (writeValue rs1 o s).toNat % 32 < 8) : Completes (.wrpsr rs1 o) s fun t =>
    Advanced s t ∧ psrWord t.psr = (writeValue rs1 o s &&& 0x00F0BFE7) ||| 0x40000000 ∧
      Frame { icc := true, cwp := true, mode := true, control := true } s t :=
  ⟨_, (exec_wrpsr_of_supervisor hs).trans (if_neg (Nat.not_le.mpr h)), ⟨rfl, rfl⟩, psrWord_psrOfWord _,
    ((Frame.refl _ s).setPsr rfl rfl rfl rfl _).advance⟩

theorem wrpsr_traps (h : 8 ≤ (writeValue rs1 o s).toNat % 32) : Traps (.wrpsr rs1 o) 0x02 s :=
  (exec_wrpsr_of_supervisor hs).trans (if_pos h)

end Wrpsr

/-- Settles O31: each write changes the one field or register that its frame allows; of those of the PSR see
`psrWord_psrOfWord`. -/
theorem stateRegisterWrites : Obligations.StateRegisterWrites := by
  intro rs1 o s v
  refine ⟨⟨_, rfl, ⟨rfl, rfl⟩, rfl, ((Frame.refl _ s).setY rfl v).advance⟩, fun hs => ⟨?_, ?_, ?_, ?_⟩⟩
  · exact wrpsr_completes hs
  · exact wrpsr_traps hs
  · exact ⟨_, privileged_of_supervisor hs _, ⟨rfl, rfl⟩, rfl, ((Frame.refl _ s).setWim rfl _).advance⟩
  · exact ⟨_, privileged_of_supervisor hs _, ⟨rfl, rfl⟩, rfl, ((Frame.refl _ s).setTba rfl _).advance⟩

/-! ## Illegal instructions (R541, R521, R530) -/

/-- Settles O33: the three arms are the one trap, whatever their operands (D23, log 51). -/
theorem illegalInstructions : Obligations.IllegalInstructions := fun _ _ _ _ _ => ⟨rfl, rfl, rfl⟩

end Sys2Proof.Machine
end

section
/-! STBAR and FLUSH: which replaced words a fetch may still see after a FLUSH (R206, R525, R540, D24, log 4). -/

namespace Sys2Proof.Machine

open Sys2Proof.Spec

/-! ## Doublewords -/

/-- The bits of an address from `k` up are those of another exactly when both lie in one block of `2 ^ k` bytes. -/
theorem extractLsb'_eq_iff_div_eq {n k m : Nat} (h : n ≤ k + m) (a b : BitVec n) :
    a.extractLsb' k m = b.extractLsb' k m ↔ a.toNat / 2 ^ k = b.toNat / 2 ^ k := by
  have hlt (x : BitVec n) : x.toNat / 2 ^ k < 2 ^ m :=
    Nat.div_lt_of_lt_mul (x.isLt.trans_le (by rw [← Nat.pow_add]; exact Nat.pow_le_pow_right two_pos h))
  have hbits (x : BitVec n) : (x.extractLsb' k m).toNat = x.toNat / 2 ^ k := by
    rw [BitVec.extractLsb'_toNat, Nat.shiftRight_eq_div_pow, Nat.mod_eq_of_lt (hlt x)]
  rw [← BitVec.toNat_inj, hbits, hbits]

/-- The doubleword a virtual address lies in (R540). -/
theorem line_eq_iff (a b : Word) : a.extractLsb' 3 29 = b.extractLsb' 3 29 ↔ a.toNat / 8 = b.toNat / 8 :=
  extractLsb'_eq_iff_div_eq (by decide) a b

/-- The doubleword a physical address lies in (R206). -/
theorem physicalDoubleword_eq_iff (p q : PAddr) : p.extractLsb' 3 33 = q.extractLsb' 3 33 ↔ p.toNat / 8 = q.toNat / 8 :=
  extractLsb'_eq_iff_div_eq (by decide) p q

/-- The doubleword of an address is that of its word. -/
theorem doubleword_of_word (pa : PAddr) : (pa.extractLsb' 2 34).extractLsb' 1 33 = pa.extractLsb' 3 33 := by
  apply BitVec.eq_of_getLsbD_eq
  intro i hi
  simp [hi, show 1 + i < 34 by omega, ← Nat.add_assoc]

/-- `pa` lies in the physical doubleword that a fetch or a load at `a` would reach (log 4). -/
def FlushReaches (a : Word) (s : State) (pa : PAddr) : Prop :=
  (∃ p u, fetchPage a s = .ok p u ∧ pa.toNat / 8 = p.toNat / 8) ∨
    ∃ p u, dataPage { va := a, kind := .load, instr := false, user := !s.psr.s } s = .ok (some p) u ∧
      pa.toNat / 8 = p.pa.toNat / 8

theorem mem_flushedDoublewords {a : Word} {s : State} {pa : PAddr} :
    pa.extractLsb' 3 33 ∈ flushedDoublewords a s ↔ FlushReaches a s pa := by
  unfold flushedDoublewords FlushReaches
  rw [List.mem_append]
  refine or_congr ?_ ?_
  · cases h : fetchPage a s <;> simp [physicalDoubleword_eq_iff]
  · cases h : dataPage { va := a, kind := .load, instr := false, user := !s.psr.s } s with
    | ok p u => cases p <;> simp [physicalDoubleword_eq_iff]
    | trap | fault | refused => simp

/-! ## The replaced words after a FLUSH -/

/-- What FLUSH of the virtual doubleword `line` adds to a replaced word. -/
def clearAt (line : BitVec 29) (e : Stale) : Stale := { e with cleared := line :: e.cleared }

theorem mem_flushStale {line : BitVec 29} {pas : List (BitVec 33)} {list : List Stale} {e : Stale} :
    e ∈ flushStale line pas list ↔ ∃ d ∈ list, d.pa.extractLsb' 1 33 ∉ pas ∧ clearAt line d = e := by
  simp [flushStale, clearAt, and_assoc]

section Flush

variable {line : BitVec 29} {pas : List (BitVec 33)} {list : List Stale} {va : Word} {pa : PAddr}

/-- Nothing of what FLUSH names can be seen. -/
theorem staleAt_eq_false_of_named (h : va.extractLsb' 3 29 = line ∨ pa.extractLsb' 3 33 ∈ pas) :
    ∀ e ∈ flushStale line pas list, staleAt pa va e = false := by
  intro e he
  obtain ⟨d, -, hpas, rfl⟩ := mem_flushStale.mp he
  rw [← Bool.not_eq_true, staleAt_iff]
  rintro ⟨hpa, hline⟩
  rcases h with h | h
  · exact hline (h ▸ List.mem_cons_self)
  · rw [← doubleword_of_word, ← hpa] at h
    exact hpas h

/-- Of any other doubleword the words that can be seen are the same. -/
theorem seen_flushStale_of_unnamed (hline : va.extractLsb' 3 29 ≠ line) (hpas : pa.extractLsb' 3 33 ∉ pas) :
    ((flushStale line pas list).filter (staleAt pa va)).map Stale.old = (list.filter (staleAt pa va)).map Stale.old := by
  have hseen (e : Stale) : (staleAt pa va (clearAt line e) && !pas.contains (e.pa.extractLsb' 1 33)) = staleAt pa va e := by
    rw [Bool.eq_iff_iff, Bool.and_eq_true, staleAt_iff, staleAt_iff]
    simp only [SeenBy, clearAt, List.mem_cons, hline, false_or]
    refine ⟨And.left, fun h => ⟨h, ?_⟩⟩
    rw [h.1, doubleword_of_word]
    simpa using hpas
  unfold flushStale
  rw [List.filter_map, List.map_map, List.filter_filter]
  exact congrArg _ (List.filter_congr fun e _ => hseen e)

end Flush

/-- Settles O34: what FLUSH names is what `flushStale` drops or clears. -/
theorem barrierAndFlush : Obligations.BarrierAndFlush := by
  intro rs1 o s
  refine ⟨⟨_, rfl, ⟨rfl, rfl⟩, (Frame.refl _ s).advance⟩, _, rfl, ⟨rfl, rfl⟩,
    ((Frame.refl _ s).setStale rfl _).drawn.advance, fun va pa => ?_⟩
  have hnamed : va.extractLsb' 3 29 = (address rs1 o s).extractLsb' 3 29 ∨
      pa.extractLsb' 3 33 ∈ flushedDoublewords (address rs1 o s) s ↔
        va.toNat / 8 = (address rs1 o s).toNat / 8 ∨ FlushReaches (address rs1 o s) s pa :=
    or_congr (line_eq_iff _ _) mem_flushedDoublewords
  refine ⟨fun h => staleAt_eq_false_of_named (hnamed.mpr h), fun h => ?_⟩
  obtain ⟨hline, hpas⟩ := not_or.mp (mt hnamed.mp h)
  exact congrArg (memWord s.mem pa :: ·) (seen_flushStale_of_unnamed hline hpas)

end Sys2Proof.Machine
end

section
/-! The floating-point instructions at the gate of the FPU: its traps, and the operates that the hardware does not implement
(44_floating_point.md, R550, R371, R612, R613, R620 to R622). -/

namespace Sys2Proof.Spec

open Sys2Proof.Machine

theorem Frame.enqueue {w : Writes} {s u : State} (h : Frame w s u) (hw : w.queue = true) (i : Instr) :
    Frame w s (Machine.enqueue i u) :=
  { h with queue := fun e => absurd (hw.symm.trans e) (by decide) }

end Sys2Proof.Spec

namespace Sys2Proof.Machine

open Sys2Proof.Spec

/-! ## What stands behind the gates -/

theorem exec_unimplementedFpops (rd rs1 rs2 : Reg) (opf : BitVec 9) (s : State) :
    ∀ i ∈ unimplementedFpops rd rs1 rs2 opf, exec i s = unimplemented i s := by
  simp only [unimplementedFpops, List.forall_mem_cons]
  exact ⟨rfl, rfl, rfl, rfl, rfl, rfl, rfl, rfl, rfl, rfl, rfl, rfl, rfl, rfl, rfl, rfl, List.forall_mem_nil _⟩

/-- Every operate and every branch on fcc stands behind the gate. -/
theorem exec_eq_fpGate (rd rs1 rs2 : Reg) (opf : BitVec 9) (a : Bool) (disp22 : BitVec 22) (s : State) :
    ∀ i ∈ arithmeticFpops rd rs1 rs2 ++ unimplementedFpops rd rs1 rs2 opf ++ Spec.floatBranches a disp22,
      ∃ body, exec i s = fpGate s body := by
  intro i hi
  obtain (hi | hi) | hi := by simpa only [List.mem_append] using hi
  · fin_cases hi <;> exact ⟨_, rfl⟩
  · exact ⟨_, exec_unimplementedFpops rd rs1 rs2 opf s i hi⟩
  · fin_cases hi <;> exact ⟨_, rfl⟩

/-- `i` is a load or store of width `w` at `a` behind its gate. -/
def BehindMemGate (isStore : Bool) (w : Width) (a : Word) (s : State) (i : Instr) : Prop :=
  ∃ body, exec i s = fpMemGate isStore w a s body

section Accesses

variable (rd rs1 : Reg) (o : Opnd2) (s : State)

theorem behindMemGate_wordLoads : ∀ i ∈ [Instr.ldf rd rs1 o, .ldfsr rd rs1 o],
    BehindMemGate false .word (address rs1 o s) s i := by
  simp only [List.forall_mem_cons]
  exact ⟨⟨_, rfl⟩, ⟨_, rfl⟩, List.forall_mem_nil _⟩

theorem behindMemGate_words : ∀ i ∈ [Instr.ldf rd rs1 o, .ldfsr rd rs1 o, .stf rd rs1 o, .stfsr rd rs1 o],
    ∃ isStore, BehindMemGate isStore .word (address rs1 o s) s i := by
  simp only [List.forall_mem_cons]
  exact ⟨⟨false, _, rfl⟩, ⟨false, _, rfl⟩, ⟨true, _, rfl⟩, ⟨true, _, rfl⟩, List.forall_mem_nil _⟩

theorem behindMemGate_lddf : BehindMemGate false .dword (address rs1 o s) s (.lddf rd rs1 o) := ⟨_, rfl⟩

theorem behindMemGate_dwords : ∀ i ∈ [Instr.lddf rd rs1 o, .stdf rd rs1 o],
    ∃ isStore, BehindMemGate isStore .dword (address rs1 o s) s i := by
  simp only [List.forall_mem_cons]
  exact ⟨⟨false, _, rfl⟩, ⟨true, _, rfl⟩, List.forall_mem_nil _⟩

/-- In supervisor mode STDFQ stands there with either queue. -/
theorem behindMemGate_stdfq (hs : s.psr.s = true) : BehindMemGate true .dword (address rs1 o s) s (.stdfq rd rs1 o) := by
  cases hq : s.fq with
  | nil => exact ⟨_, stdfq_of_empty rd rs1 o hs hq⟩
  | cons e rest => exact ⟨_, stdfq_of_entry rd rs1 o hs hq⟩

end Accesses

/-! ## The traps of the gates -/

section Gates

variable {isStore : Bool} {w : Width} {a : Word} {s : State} {i : Instr}

theorem BehindMemGate.traps_of_disabled (h : BehindMemGate isStore w a s i) (he : s.psr.ef = false) : Traps i 0x04 s := by
  obtain ⟨body, h⟩ := h
  rw [Traps, h, fpMemGate, if_pos he]
  rfl

theorem BehindMemGate.traps_of_not_aligned (h : BehindMemGate isStore w a s i) (he : s.psr.ef = true)
    (ha : a.toNat % bytesOf w ≠ 0) : Traps i 0x07 s := by
  obtain ⟨body, h⟩ := h
  rw [Traps, h, fpMemGate, if_neg (by simp [he]), if_pos (not_aligned_iff.mpr ha)]
  rfl

theorem BehindMemGate.exec_of_pending (h : BehindMemGate isStore w a s i) (he : s.psr.ef = true)
    (ha : a.toNat % bytesOf w = 0) (hm : s.fpMode = .exceptionPending) : exec i s = deliverPending s := by
  obtain ⟨body, h⟩ := h
  simp [h, fpMemGate, he, aligned_iff.mpr ha, hm]

theorem BehindMemGate.exec_of_exception (h : BehindMemGate false w a s i) (he : s.psr.ef = true)
    (ha : a.toNat % bytesOf w = 0) (hm : s.fpMode = .exception) : exec i s = sequenceError s := by
  obtain ⟨body, h⟩ := h
  simp [h, fpMemGate, he, aligned_iff.mpr ha, hm]

theorem fpGate_of_pending (he : s.psr.ef = true) (hm : s.fpMode = .exceptionPending) (body : Result) :
    fpGate s body = deliverPending s := by
  simp [fpGate, he, hm]

theorem fpGate_of_exception (he : s.psr.ef = true) (hm : s.fpMode = .exception) (body : Result) :
    fpGate s body = sequenceError s := by
  simp [fpGate, he, hm]

end Gates

/-! ## The floating-point exception trap (R621, R622) -/

/-- What the trap leaves in `t`: the FPU is in fp_exception mode, its registers and its queue are kept, and the FSR is `r`. -/
def EntersException (r : Fsr) (s t : State) : Prop :=
  t.trapped = true ∧ t.tbr.tt = 0x08 ∧ t.fpMode = .exception ∧ t.fq = s.fq ∧ t.fsr = r ∧ t.f = s.f ∧ MemKept s t ∧
    readReg 17 t = s.pc

section Exception

variable {s : State} (he : s.psr.et = true) (hq : s.fq ≠ [])
include he

theorem entersException_takeTrap (r : Fsr) :
    EntersException r s (takeTrap ttFpException { s with fsr := r, fpMode := .exception }) :=
  ⟨takeTrap_trapped .., by rw [takeTrap_tbr]; rfl, takeTrap_fpMode .., takeTrap_fq .., takeTrap_fsr .., takeTrap_f ..,
    fun c => by rw [takeTrap_mem], (readReg_takeTrap (s := { s with fsr := r, fpMode := .exception }) he _).1⟩

include hq

theorem deliverPending_entersException {i : Instr} (h : exec i s = deliverPending s) :
    ∃ t, exec i s = .next t ∧ EntersException s.fsr s t := by
  refine ⟨_, ?_, entersException_takeTrap he s.fsr⟩
  rw [h, deliverPending, takeTrapWith_of_et he, if_neg (by simpa using hq)]

theorem sequenceError_entersException (hm : s.fpMode = .exception) {i : Instr} (h : exec i s = sequenceError s) :
    ∃ t, exec i s = .next t ∧ EntersException { s.fsr with ftt := 4 } s t := by
  refine ⟨_, ?_, entersException_takeTrap he { s.fsr with ftt := 4 }⟩
  rw [h, sequenceError, takeTrapWith_of_et he, if_neg (by simpa using hq), hm]

end Exception

/-! ## The obligations -/

/-- Settles O51: each instruction stands behind one of the two gates, whose checks come in the order of the statement. -/
theorem floatGate : Obligations.FloatGate := by
  intro rd rs1 rs2 opf a disp22 o s operates ea words dwords
  have hop := exec_eq_fpGate rd rs1 rs2 opf a disp22 s
  have hwords := behindMemGate_words rd rs1 o s
  have hdwords := behindMemGate_dwords rd rs1 o s
  have hstdfq := behindMemGate_stdfq rd rs1 o s
  refine ⟨fun he => ⟨?_, fun hs => (hstdfq hs).traps_of_disabled he⟩, fun he => ⟨fun ha i hi => ?_, fun ha i hi => ?_,
    fun ha hs => (hstdfq hs).traps_of_not_aligned he ha, fun het hq => ⟨fun hm => ?_, fun hm => ?_⟩⟩⟩
  · simp only [List.forall_mem_append]
    refine ⟨⟨fun i hi => ?_, fun i hi => ?_⟩, fun i hi => ?_⟩
    · obtain ⟨body, hb⟩ := hop i hi
      exact hb.trans (fpGate_of_disabled he body)
    · exact (hwords i hi).choose_spec.traps_of_disabled he
    · exact (hdwords i hi).choose_spec.traps_of_disabled he
  · exact (hwords i hi).choose_spec.traps_of_not_aligned he ha
  · exact (hdwords i hi).choose_spec.traps_of_not_aligned he ha
  · have delivered := fun i => deliverPending_entersException het hq (i := i)
    refine ⟨fun i hi => ?_, fun ha i hi => ?_, fun ha i hi => ?_, fun ha hs => ?_⟩
    · obtain ⟨body, hb⟩ := hop i hi
      exact delivered i (hb.trans (fpGate_of_pending he hm body))
    · exact delivered i ((hwords i hi).choose_spec.exec_of_pending he ha hm)
    · exact delivered i ((hdwords i hi).choose_spec.exec_of_pending he ha hm)
    · exact delivered _ ((hstdfq hs).exec_of_pending he ha hm)
  · have sequence := fun i => sequenceError_entersException het hq hm (i := i)
    refine ⟨fun i hi => ?_, fun ha i hi => ?_, fun ha => ?_⟩
    · obtain ⟨body, hb⟩ := hop i hi
      exact sequence i (hb.trans (fpGate_of_exception he hm body))
    · exact sequence i ((behindMemGate_wordLoads rd rs1 o s i hi).exec_of_exception he ha hm)
    · exact sequence _ ((behindMemGate_lddf rd rs1 o s).exec_of_exception he ha hm)

/-- Settles O57: behind the open gate all of them are one operation. -/
theorem unimplementedFpops : Obligations.UnimplementedFpops := by
  intro rd rs1 rs2 opf s hr i hi
  refine ⟨_, (exec_unimplementedFpops rd rs1 rs2 opf s i hi).trans (fpGate_of_ready hr.1 hr.2 _), ⟨rfl, rfl⟩, ⟨rfl, rfl⟩,
    rfl, ?_⟩
  exact (((Frame.refl _ s).setFsr rfl _).enqueue rfl i).advance

end Sys2Proof.Machine
end

section
/-! The floating-point operates behind the open gate: one that delivers its result, and one whose exception is enabled and
that waits in the queue (44_floating_point.md, R553). -/

namespace Sys2Proof.Machine

open Sys2Proof.Spec

/-! ## The first exception (R553, log 41) -/

/-- `firstExc` as a table: one bit of the set, and no bit of the set above it. -/
theorem firstExc_spec : ∀ e : BitVec 5, e ≠ 0 → ∃ k : Fin 5, firstExc e = 1 <<< k.val ∧ e.getLsbD k = true ∧
    ∀ j : Fin 5, k < j → e.getLsbD j = false := by
  decide

theorem firstOf_firstExc {e : BitVec 5} (h : e ≠ 0) : FirstOf e (firstExc e) := by
  obtain ⟨k, hk, hbit, habove⟩ := firstExc_spec e h
  refine ⟨k, k.isLt, hk, hbit, fun j hj => ?_⟩
  by_cases h5 : j < 5
  · exact habove ⟨j, h5⟩ hj
  · exact BitVec.getLsbD_of_ge e j (by omega)

theorem firstExc_nv : ∀ t : BitVec 5, excNv &&& t ≠ 0 → firstExc (excNv &&& t) = excNv := by
  decide

/-! ## Delivery -/

/-- The operate completes and waits in the queue: of its exceptions `exc` an enabled one is named in cexc. -/
def Waits (i : Instr) (exc : BitVec 5) (s : State) : Prop :=
  Completes i s fun t => Advanced s t ∧ Queued i s t ∧ FirstOf (exc &&& s.fsr.tem) t.fsr.cexc ∧
    t.fsr = { s.fsr with cexc := t.fsr.cexc, ftt := 1 } ∧ Frame { fsr := true, queue := true } s t

/-- The FSR after an operate whose exceptions `exc` are masked. -/
def maskedFsr (exc : BitVec 5) (r : Fsr) : Fsr := { r with cexc := exc, aexc := r.aexc ||| exc, ftt := 0 }

theorem maskedFsr_zero (r : Fsr) : maskedFsr 0 r = { r with cexc := 0, ftt := 0 } := by
  rw [maskedFsr, show r.aexc ||| 0 = r.aexc from BitVec.or_zero]

section Delivery

variable {i : Instr} {exc : BitVec 5} {write : State → State} {rd : Reg} {r : FloatRes} {s : State} (hr : FpReady s)
include hr

theorem fpop_of_enabled (h : exc &&& s.fsr.tem ≠ 0) (hi : exec i s = fpop i exc write s) : exec i s =
    .next (advance (enqueue i { s with fsr := { s.fsr with cexc := firstExc (exc &&& s.fsr.tem), ftt := 1 } })) := by
  rw [hi, fpop, fpGate_of_ready hr.1 hr.2, deliver_of_enabled h]

theorem fpop_of_masked (h : exc &&& s.fsr.tem = 0) (hi : exec i s = fpop i exc write s) : exec i s =
    .next (advance { write s with fsr := maskedFsr exc (write s).fsr }) := by
  rw [hi, fpop, fpGate_of_ready hr.1 hr.2, deliver_of_masked h]
  rfl

theorem waits_of_enabled (h : exc &&& s.fsr.tem ≠ 0) (hi : exec i s = fpop i exc write s) : Waits i exc s :=
  ⟨_, fpop_of_enabled hr h hi, ⟨rfl, rfl⟩, ⟨rfl, rfl⟩, firstOf_firstExc h, rfl,
    (((Frame.refl _ s).setFsr rfl _).enqueue rfl i).advance⟩

/-- A single result is written, or the operate waits. -/
theorem completes_single (hi : exec i s = fpopSingle i rd r s) :
    (r.exc &&& s.fsr.tem ≠ 0 → Waits i r.exc s) ∧
    (r.exc &&& s.fsr.tem = 0 → Completes i s fun t => Advanced s t ∧ t.fsr = maskedFsr r.exc s.fsr ∧
      readF rd t = BitVec.ofNat 32 r.bits ∧ Frame { fregs := [rd], fsr := true } s t) :=
  ⟨fun h => waits_of_enabled hr h hi, fun h =>
    ⟨_, fpop_of_masked hr h hi, ⟨rfl, rfl⟩, rfl, readF_writeF_same rd _ s,
      (((Frame.refl _ s).writeF (by simp) _).setFsr rfl _).advance⟩⟩

/-- A double result likewise. -/
theorem completes_double (hi : exec i s = fpopDouble i rd r s) :
    (r.exc &&& s.fsr.tem ≠ 0 → Waits i r.exc s) ∧
    (r.exc &&& s.fsr.tem = 0 → Completes i s fun t => Advanced s t ∧ t.fsr = maskedFsr r.exc s.fsr ∧
      readD rd t = BitVec.ofNat 64 r.bits ∧ Frame { fregs := [pairEven rd, pairOdd rd], fsr := true } s t) :=
  ⟨fun h => waits_of_enabled hr h hi, fun h =>
    ⟨_, fpop_of_masked hr h hi, ⟨rfl, rfl⟩, rfl, readD_writeD_same rd _ s,
      (((Frame.refl _ s).writeD (by simp) (by simp) _).setFsr rfl _).advance⟩⟩

/-- A move raises nothing. -/
theorem completes_move {v : Word} (hi : exec i s = fpop i 0 (writeF rd v) s) :
    Completes i s fun t => Advanced s t ∧ readF rd t = v ∧ t.fsr = { s.fsr with cexc := 0, ftt := 0 } ∧
      Frame { fregs := [rd], fsr := true } s t :=
  ⟨_, fpop_of_masked hr BitVec.zero_and hi, ⟨rfl, rfl⟩, readF_writeF_same rd v s, maskedFsr_zero s.fsr,
    (((Frame.refl _ s).writeF (by simp) _).setFsr rfl _).advance⟩

/-- A compare writes fcc alone, or waits; the one exception it can raise is nv. -/
theorem completes_compare {fcc : BitVec 2} (hexc : exc = 0 ∨ exc = excNv) (hi : exec i s = fpopCompare i (fcc, exc) s) :
    (exc &&& s.fsr.tem = 0 → Completes i s fun t => Advanced s t ∧
      t.fsr = { s.fsr with fcc := fcc, cexc := exc, aexc := s.fsr.aexc ||| exc, ftt := 0 } ∧ Frame { fsr := true } s t) ∧
    (exc &&& s.fsr.tem ≠ 0 → Completes i s fun t => Advanced s t ∧ Queued i s t ∧
      t.fsr = { s.fsr with cexc := exc, ftt := 1 } ∧ Frame { fsr := true, queue := true } s t) := by
  refine ⟨fun h => ⟨_, fpop_of_masked hr h hi, ⟨rfl, rfl⟩, rfl, (((Frame.refl _ s).setFsr rfl _).setFsr rfl _).advance⟩,
    fun h => ⟨_, fpop_of_enabled hr h hi, ⟨rfl, rfl⟩, ⟨rfl, rfl⟩, ?_, (((Frame.refl _ s).setFsr rfl _).enqueue rfl i).advance⟩⟩
  show { s.fsr with cexc := firstExc (exc &&& s.fsr.tem), ftt := 1 } = _
  obtain rfl | rfl := hexc
  · exact absurd BitVec.zero_and h
  · rw [firstExc_nv _ h]

end Delivery

/-- Settles O52: each operate delivers one result. -/
theorem floatResults : Obligations.FloatResults := by
  intro rd rs1 rs2 s hr rm m x y X Y masked waits
  simp only [List.forall_mem_cons]
  refine ⟨⟨completes_single hr rfl, completes_single hr rfl, completes_single hr rfl, completes_single hr rfl,
    completes_single hr rfl, completes_single hr rfl, completes_single hr rfl, completes_single hr rfl,
    completes_single hr rfl, List.forall_mem_nil _⟩,
    completes_double hr rfl, completes_double hr rfl, completes_double hr rfl, completes_double hr rfl,
    completes_double hr rfl, completes_double hr rfl, completes_double hr rfl, completes_double hr rfl,
    List.forall_mem_nil _⟩

end Sys2Proof.Machine
end

section
/-! The bit patterns of a format and their values (R551): a pattern is a sign bit and magnitude bits, and the magnitude bits
are in the order of the values they stand for. -/

namespace Sys2Proof.Machine

open Sys2Proof.Spec

/-! ## Formats -/

/-- The precision and the exponent have two bits or more. -/
structure Format.Proper (F : Format) : Prop where
  p : 2 ≤ F.p
  w : 2 ≤ F.w

theorem single_proper : single.Proper := ⟨by decide, by decide⟩
theorem double_proper : double.Proper := ⟨by decide, by decide⟩

theorem proper_of_eq {F : Format} (h : F = single ∨ F = double) : F.Proper := by
  obtain rfl | rfl := h
  · exact single_proper
  · exact double_proper

section Patterns

variable {F : Format} {s : Bool} {M : Nat}

theorem infinityBits_eq (F : Format) : infinityBits F = F.infinity := rfl

theorem infinity_lt (F : Format) : F.infinity < 2 ^ (F.p - 1 + F.w) := by
  rw [Format.infinity, Nat.add_comm, pow_add]
  exact Nat.mul_lt_mul_of_pos_right (Nat.sub_lt (by positivity) one_pos) (by positivity)

theorem div_lt_of_lt_infinity (h : M < F.infinity) : M / 2 ^ (F.p - 1) < 2 ^ F.w - 1 :=
  Nat.div_lt_of_lt_mul (by rwa [Nat.mul_comm])

section Proper

variable (hF : F.Proper)
include hF

theorem Format.Proper.width_eq : F.p + F.w - 1 = F.p - 1 + F.w := by
  have := hF.p
  omega

theorem Format.Proper.two_pow_p : 2 ^ F.p = 2 * 2 ^ (F.p - 1) := by
  rw [← pow_succ']
  congr 1
  have := hF.p
  omega

theorem Format.Proper.two_pow_width : 2 ^ (F.p + F.w) = 2 * 2 ^ (F.p - 1 + F.w) := by
  rw [← pow_succ']
  congr 1
  have := hF.p
  omega

/-- R551: every exponent but the largest is that of numbers, so there are `2 * bias` exponents of normal numbers. -/
theorem Format.Proper.two_pow_w : ((2 ^ F.w - 1 : Nat) : Int) = 2 * F.bias + 1 := by
  have h2 : 2 ^ F.w = 2 * 2 ^ (F.w - 1) := by
    rw [← pow_succ']
    congr 1
    have := hF.w
    omega
  have : 0 < 2 ^ (F.w - 1) := by positivity
  rw [Format.bias, h2]
  push_cast [show 1 ≤ 2 * 2 ^ (F.w - 1) by omega]
  ring

theorem Format.Proper.infinity_pos : 0 < F.infinity := by
  have := Nat.pow_le_pow_right (n := 2) (by decide) hF.w
  exact Nat.mul_pos (by omega) (by positivity)

/-! ## The sign and the magnitude of a pattern -/

theorem exists_pattern {x : Nat} (h : x < 2 ^ (F.p + F.w)) : ∃ s M, M < 2 ^ (F.p - 1 + F.w) ∧ x = F.signBit s + M := by
  rw [hF.two_pow_width] at h
  by_cases hx : x < 2 ^ (F.p - 1 + F.w)
  · exact ⟨false, x, hx, by simp [Format.signBit]⟩
  · exact ⟨true, x - 2 ^ (F.p - 1 + F.w), by omega, by simp only [Format.signBit, if_true]; omega⟩

theorem pattern_lt (hM : M < 2 ^ (F.p - 1 + F.w)) (s : Bool) : F.signBit s + M < 2 ^ (F.p + F.w) := by
  rw [hF.two_pow_width, Format.signBit]
  split_ifs <;> omega

theorem signOf_pattern (hM : M < 2 ^ (F.p - 1 + F.w)) (s : Bool) : signOf F (F.signBit s + M) = s := by
  rw [signOf, hF.width_eq]
  cases s <;> simp [Format.signBit, hM]

theorem signedResult_eq (s : Bool) (M exc : Nat) :
    signedResult F s M exc = { bits := F.signBit s + M, exc := BitVec.ofNat 5 exc } := by
  rw [signedResult, hF.width_eq, Format.signBit]

end Proper

theorem pattern_mod (hM : M < 2 ^ (F.p - 1 + F.w)) (s : Bool) : (F.signBit s + M) % 2 ^ (F.p - 1 + F.w) = M := by
  cases s <;> simp [Format.signBit, Nat.mod_eq_of_lt hM]

theorem pattern_sign (hM : M < 2 ^ (F.p - 1 + F.w)) (s : Bool) :
    ((F.signBit s + M) / 2 ^ (F.p - 1 + F.w) % 2 == 1) = s := by
  cases s <;> simp [Format.signBit, Nat.div_eq_of_lt hM]

/-- The fraction and the exponent field of a pattern are those of its magnitude. -/
theorem pattern_frac (hM : M < 2 ^ (F.p - 1 + F.w)) (s : Bool) :
    (F.signBit s + M) % 2 ^ (F.p - 1) = M % 2 ^ (F.p - 1) := by
  conv_rhs => rw [← pattern_mod hM s, pow_add, Nat.mod_mul_right_mod]

theorem pattern_exp (hM : M < 2 ^ (F.p - 1 + F.w)) (s : Bool) :
    (F.signBit s + M) / 2 ^ (F.p - 1) % 2 ^ F.w = M / 2 ^ (F.p - 1) := by
  rw [← Nat.mod_mul_right_div_self, ← pow_add, pattern_mod hM]

theorem unpack_pattern (hM : M < 2 ^ (F.p - 1 + F.w)) (s : Bool) : unpack F (F.signBit s + M) =
    if M / 2 ^ (F.p - 1) = 2 ^ F.w - 1 then
      (if M % 2 ^ (F.p - 1) = 0 then .inf s else .nan s (M % 2 ^ (F.p - 1)))
    else if M / 2 ^ (F.p - 1) = 0 then
      (if M % 2 ^ (F.p - 1) = 0 then .zero s else .fin s (M % 2 ^ (F.p - 1)) F.least)
    else .fin s (M % 2 ^ (F.p - 1) + 2 ^ (F.p - 1)) (F.least + (M / 2 ^ (F.p - 1) - 1 : Nat)) := by
  simp only [unpack, pattern_frac hM, pattern_exp hM, pattern_sign hM]

/-! ## Numbers -/

/-- The significand of a number with magnitude bits `M`. -/
def significand (F : Format) (M : Nat) : Nat :=
  if M / 2 ^ (F.p - 1) = 0 then M else M % 2 ^ (F.p - 1) + 2 ^ (F.p - 1)

/-- How far the exponent of its last place is above the least one. -/
def ulpExp (F : Format) (M : Nat) : Nat := M / 2 ^ (F.p - 1) - 1

/-- What the number is worth, also beyond the largest exponent of the format. -/
def magValue (F : Format) (M : Nat) : ℚ := significand F M * 2 ^ (F.least + ulpExp F M)

theorem significand_lt (hF : F.Proper) (M : Nat) : significand F M < 2 ^ F.p := by
  have hpos : 0 < 2 ^ (F.p - 1) := by positivity
  have hmod := Nat.mod_lt M hpos
  rw [significand, hF.two_pow_p]
  split_ifs with h
  · have := (Nat.div_eq_zero_iff_lt hpos).mp h
    omega
  · omega

theorem le_significand (h : ulpExp F M ≠ 0) : 2 ^ (F.p - 1) ≤ significand F M := by
  rw [ulpExp] at h
  rw [significand, if_neg (by omega)]
  exact Nat.le_add_left ..

/-- The magnitude bits count the significands of one exponent after those of the next smaller one. -/
theorem ulpExp_mul_add_significand (F : Format) (M : Nat) : ulpExp F M * 2 ^ (F.p - 1) + significand F M = M := by
  have hdiv := Nat.div_add_mod M (2 ^ (F.p - 1))
  rw [ulpExp, significand]
  split_ifs with h
  · simp [h]
  · obtain ⟨n, hn⟩ := Nat.exists_eq_succ_of_ne_zero h
    rw [hn] at hdiv ⊢
    rw [← hdiv, Nat.succ_sub_one, Nat.succ_eq_add_one]
    simp only [Nat.mul_add_mod, Nat.mod_mod]
    ring

theorem significand_zero (F : Format) : significand F 0 = 0 := by simp [significand]

@[simp] theorem magValue_zero (F : Format) : magValue F 0 = 0 := by simp [magValue, significand_zero]

/-- The value at a place among the magnitude bits, also where the significand has just outgrown its exponent. -/
theorem magValue_mul_add (hF : F.Proper) {n k : Nat} (hk : k ≤ 2 ^ F.p) (h : n = 0 ∨ 2 ^ (F.p - 1) ≤ k) :
    magValue F (n * 2 ^ (F.p - 1) + k) = k * 2 ^ (F.least + n) := by
  have hpos : 0 < 2 ^ (F.p - 1) := by positivity
  rw [hF.two_pow_p] at hk
  obtain hlow | hmid | rfl : k < 2 ^ (F.p - 1) ∨ (2 ^ (F.p - 1) ≤ k ∧ k - 2 ^ (F.p - 1) < 2 ^ (F.p - 1)) ∨
      k = 2 * 2 ^ (F.p - 1) := by omega
  · obtain rfl : n = 0 := h.resolve_right (by omega)
    simp [magValue, significand, ulpExp, Nat.div_eq_of_lt hlow]
  · obtain ⟨j, rfl⟩ := Nat.exists_eq_add_of_le hmid.1
    have hj : j < 2 ^ (F.p - 1) := by omega
    have hM : n * 2 ^ (F.p - 1) + (2 ^ (F.p - 1) + j) = j + 2 ^ (F.p - 1) * (n + 1) := by ring
    rw [magValue, significand, ulpExp, hM, Nat.add_mul_div_left _ _ hpos, Nat.div_eq_of_lt hj, Nat.add_mul_mod_self_left,
      Nat.mod_eq_of_lt hj]
    simp [Nat.add_comm]
  · have hM : n * 2 ^ (F.p - 1) + 2 * 2 ^ (F.p - 1) = 0 + 2 ^ (F.p - 1) * (n + 2) := by ring
    rw [magValue, significand, ulpExp, hM, Nat.add_mul_div_left _ _ hpos, Nat.add_mul_mod_self_left]
    simp only [Nat.zero_div, Nat.zero_add, Nat.zero_mod]
    rw [if_neg (by omega), show n + 2 - 1 = n + 1 by omega]
    push_cast
    rw [← add_assoc, zpow_add_one₀ two_ne_zero]
    ring

theorem magValue_lt_succ (hF : F.Proper) (M : Nat) : magValue F M < magValue F (M + 1) := by
  have hlt := significand_lt hF M
  have hge : ulpExp F M = 0 ∨ 2 ^ (F.p - 1) ≤ significand F M + 1 :=
    or_iff_not_imp_left.mpr fun h => (le_significand h).trans (Nat.le_succ _)
  have hsucc := magValue_mul_add hF (Nat.succ_le_of_lt hlt) hge
  rw [Nat.succ_eq_add_one, ← add_assoc, ulpExp_mul_add_significand] at hsucc
  rw [hsucc, magValue]
  gcongr
  simp

theorem magValue_strictMono (hF : F.Proper) : StrictMono (magValue F) :=
  strictMono_nat_of_lt_succ (magValue_lt_succ hF)

theorem magValue_nonneg (F : Format) (M : Nat) : 0 ≤ magValue F M := by
  rw [magValue]
  positivity

theorem magValue_eq_zero_iff (hF : F.Proper) : magValue F M = 0 ↔ M = 0 := by
  rw [← magValue_zero F, (magValue_strictMono hF).injective.eq_iff]

/-- R552: the largest finite value and the value that would come after it. -/
theorem magValue_infinity (hF : F.Proper) : magValue F F.infinity = 2 ^ (F.bias + 1) ∧
    magValue F (F.infinity - 1) = 2 ^ (F.bias + 1) - 2 ^ (F.bias + 1 - F.p) := by
  have hw := hF.two_pow_w
  have h3 : 3 ≤ 2 ^ F.w - 1 := by
    have := Nat.pow_le_pow_right (n := 2) (by decide) hF.w
    omega
  obtain ⟨n, hn⟩ := Nat.exists_eq_add_of_le h3
  have hpos : 0 < 2 ^ (F.p - 1) := by positivity
  have hinf : F.infinity = (n + 1) * 2 ^ (F.p - 1) + 2 ^ F.p := by
    rw [Format.infinity, hn, hF.two_pow_p]
    ring
  have hinf1 : F.infinity - 1 = (n + 1) * 2 ^ (F.p - 1) + (2 ^ F.p - 1) := by
    have : 0 < 2 ^ F.p := by positivity
    omega
  have hexp : F.least + ((n + 1 : Nat) : Int) = F.bias + 1 - F.p := by
    rw [hn] at hw
    push_cast at hw ⊢
    rw [Format.least]
    omega
  have hp : (2 : ℚ) ^ F.p * 2 ^ (F.bias + 1 - F.p) = 2 ^ (F.bias + 1) := by
    rw [← zpow_natCast, ← zpow_add₀ two_ne_zero]
    congr 1
    ring
  have h2 := hF.two_pow_p
  constructor
  · rw [hinf, magValue_mul_add hF le_rfl (.inr (by omega)), hexp, Nat.cast_pow, Nat.cast_ofNat, hp]
  · rw [hinf1, magValue_mul_add hF (Nat.sub_le ..) (.inr (by omega)), hexp, Nat.cast_sub (by omega), Nat.cast_pow,
      Nat.cast_ofNat, Nat.cast_one, sub_mul, hp, one_mul]

/-- The least normal number. -/
theorem magValue_normal (hF : F.Proper) : magValue F (2 ^ (F.p - 1)) = 2 ^ (1 - F.bias) := by
  have h := magValue_mul_add hF (n := 0) (k := 2 ^ (F.p - 1)) (by rw [hF.two_pow_p]; omega) (.inl rfl)
  rw [Nat.zero_mul, Nat.zero_add] at h
  rw [h, Nat.cast_pow, Nat.cast_ofNat, ← zpow_natCast, ← zpow_add₀ two_ne_zero]
  congr 1
  have := hF.p
  rw [Format.least]
  omega

/-! ## What a pattern stands for -/

theorem unpack_zero (hF : F.Proper) (s : Bool) : unpack F (F.signBit s) = .zero s := by
  have h := unpack_pattern (F := F) (M := 0) (by positivity) s
  have := hF.two_pow_w
  have := Nat.pow_le_pow_right (n := 2) (by decide) hF.w
  rwa [Nat.add_zero, Nat.zero_div, Nat.zero_mod, if_neg (by omega), if_pos rfl, if_pos rfl] at h

theorem unpack_number (h : M < F.infinity) (h0 : M ≠ 0) (s : Bool) :
    unpack F (F.signBit s + M) = .fin s (significand F M) (F.least + ulpExp F M) := by
  have hdiv := div_lt_of_lt_infinity h
  rw [unpack_pattern (h.trans (infinity_lt F)), if_neg hdiv.ne, significand, ulpExp]
  by_cases hE : M / 2 ^ (F.p - 1) = 0
  · have hlt := (Nat.div_eq_zero_iff_lt (by positivity)).mp hE
    simp [hE, Nat.mod_eq_of_lt hlt, h0]
  · simp [hE]

theorem unpack_infinity (F : Format) (s : Bool) : unpack F (F.signBit s + F.infinity) = .inf s := by
  rw [unpack_pattern (infinity_lt F)]
  simp [Format.infinity]

theorem unpack_nan (h : F.infinity < M) (hM : M < 2 ^ (F.p - 1 + F.w)) (s : Bool) :
    unpack F (F.signBit s + M) = .nan s (M - F.infinity) := by
  obtain ⟨j, rfl⟩ := Nat.exists_eq_add_of_lt h
  have hw : 0 < 2 ^ F.w := by positivity
  have htop : F.infinity + 2 ^ (F.p - 1) = 2 ^ (F.p - 1 + F.w) := by
    rw [Format.infinity, ← Nat.succ_mul, Nat.succ_eq_add_one, Nat.sub_add_cancel hw, Nat.add_comm (F.p - 1), pow_add]
  have hj : j + 1 < 2 ^ (F.p - 1) := by omega
  have hdiv : (F.infinity + j + 1) / 2 ^ (F.p - 1) = 2 ^ F.w - 1 := by
    rw [Format.infinity, Nat.add_assoc, Nat.mul_comm, Nat.mul_add_div (by positivity), Nat.div_eq_of_lt hj, Nat.add_zero]
  have hmod : (F.infinity + j + 1) % 2 ^ (F.p - 1) = j + 1 := by
    rw [Format.infinity, Nat.add_assoc, Nat.mul_comm, Nat.mul_add_mod, Nat.mod_eq_of_lt hj]
  rw [unpack_pattern hM, hdiv, hmod, if_pos rfl, if_neg (Nat.succ_ne_zero j), Nat.add_assoc, Nat.add_sub_cancel_left]

/-- The value of a number. -/
theorem valueOf_number (hF : F.Proper) (h : M < F.infinity) (s : Bool) :
    valueOf (unpack F (F.signBit s + M)) = (if s then -1 else 1) * magValue F M := by
  by_cases h0 : M = 0
  · rw [h0, Nat.add_zero, unpack_zero hF, magValue_zero, mul_zero]
    rfl
  · rw [unpack_number h h0, magValue, ← mul_assoc]
    rfl

theorem finite_pattern_iff (hF : F.Proper) (hM : M < 2 ^ (F.p - 1 + F.w)) (s : Bool) :
    Finite F (F.signBit s + M) ↔ M < F.infinity := by
  obtain h | rfl | h := lt_trichotomy M F.infinity
  · refine iff_of_true ⟨pattern_lt hF hM s, fun t n => ?_⟩ h
    by_cases h0 : M = 0
    · rw [h0, Nat.add_zero, unpack_zero hF]
      exact ⟨nofun, nofun⟩
    · rw [unpack_number h h0]
      exact ⟨nofun, nofun⟩
  · exact iff_of_false (fun hf => (hf.2 s 0).1 (unpack_infinity F s)) (lt_irrefl _)
  · exact iff_of_false (fun hf => (hf.2 s _).2 (unpack_nan h hM s)) h.not_gt

theorem finite_iff (hF : F.Proper) {x : Nat} : Finite F x ↔ ∃ s M, M < F.infinity ∧ x = F.signBit s + M := by
  constructor
  · intro h
    obtain ⟨s, M, hM, rfl⟩ := exists_pattern hF h.1
    exact ⟨s, M, (finite_pattern_iff hF hM s).mp h, rfl⟩
  · rintro ⟨s, M, hM, rfl⟩
    exact (finite_pattern_iff hF (hM.trans (infinity_lt F)) s).mpr hM

theorem infinite_iff (hF : F.Proper) {x : Nat} : Spec.Infinite F x ↔ ∃ s, x = F.signBit s + F.infinity := by
  rw [Spec.Infinite, hF.width_eq, infinityBits_eq]
  constructor
  · rintro ⟨hx, hmod⟩
    obtain ⟨s, M, hM, rfl⟩ := exists_pattern hF hx
    rw [pattern_mod hM] at hmod
    exact ⟨s, by rw [hmod]⟩
  · rintro ⟨s, rfl⟩
    exact ⟨pattern_lt hF (infinity_lt F) s, pattern_mod (infinity_lt F) s⟩

end Patterns

end Sys2Proof.Machine
end

section
/-! NaNs: the NaN that an operate delivers, and when it raises nv (44_floating_point.md, R555, R585, R588, R589). -/

namespace Sys2Proof.Machine

open Sys2Proof.Spec

/-! ## The quiet bit -/

/-- Setting the bit of weight `2 ^ k` of a number whose low bits are `c`. -/
theorem mul_add_or_two_pow {k c : Nat} (hc : c < 2 ^ (k + 1)) (a : Nat) :
    a * 2 ^ (k + 1) + c ||| 2 ^ k = a * 2 ^ (k + 1) + if c < 2 ^ k then c + 2 ^ k else c := by
  have split {d : Nat} (hd : d < 2 ^ (k + 1)) : a * 2 ^ (k + 1) + d = a * 2 ^ (k + 1) ||| d := by
    rw [← Nat.shiftLeft_eq, Nat.shiftLeft_add_eq_or_of_lt hd]
  have hpow : 2 ^ (k + 1) = 2 ^ k + 2 ^ k := by rw [pow_succ]; omega
  have top {d : Nat} (hd : d < 2 ^ k) : 2 ^ k + d = 2 ^ k ||| d := by
    simpa using Nat.two_pow_add_eq_or_of_lt hd 1
  rw [split hc, Nat.or_assoc]
  split_ifs with h
  · rw [split (by omega), Nat.add_comm c, top h, Nat.or_comm c]
  · obtain ⟨d, rfl⟩ := Nat.exists_eq_add_of_le (not_lt.mp h)
    rw [split hc, top (by omega), Nat.or_comm (2 ^ k), Nat.or_assoc, Nat.or_self]

section Nans

variable {F G : Format} {v x y : Nat}

/-- A quiet NaN is the NaN with the first fraction bit set. -/
theorem quieted_eq (hF : F.Proper) (s : Bool) {frac : Nat} (h : frac < 2 ^ (F.p - 1)) :
    quieted F s frac = F.signBit s + F.infinity + frac ||| 2 ^ (F.p - 2) := by
  have hp : F.p - 1 = F.p - 2 + 1 := by
    have := hF.p
    omega
  have hhigh : F.signBit s + F.infinity = ((if s then 2 ^ F.w else 0) + (2 ^ F.w - 1)) * 2 ^ (F.p - 2 + 1) := by
    rw [Format.signBit, Format.infinity, hp]
    split_ifs <;> ring
  rw [hp] at h
  rw [quieted, signalling, hhigh, mul_add_or_two_pow h]
  simp only [decide_eq_true_eq]

/-! ## NaN patterns -/

/-- The pattern is a NaN: the exponent field is full and the fraction is not 0 (R551). -/
abbrev NanPattern (F : Format) (v : Nat) : Prop := v / 2 ^ (F.p - 1) % 2 ^ F.w = 2 ^ F.w - 1 ∧ v % 2 ^ (F.p - 1) ≠ 0

/-- The NaN is signalling: its first fraction bit is 0. -/
abbrev LoudPattern (F : Format) (v : Nat) : Prop := NanPattern F v ∧ v % 2 ^ (F.p - 1) < 2 ^ (F.p - 2)

/-- A NaN is its sign, the full exponent and its fraction side by side. -/
theorem eq_of_nan (hF : F.Proper) (hv : v < 2 ^ (F.p + F.w)) (h : NanPattern F v) :
    v = F.signBit (signOf F v) + F.infinity + v % 2 ^ (F.p - 1) := by
  obtain ⟨s, M, hM, rfl⟩ := exists_pattern hF hv
  have hexp : M / 2 ^ (F.p - 1) = 2 ^ F.w - 1 := (pattern_exp hM s).symm.trans h.1
  rw [signOf_pattern hF hM, pattern_frac hM, Nat.add_assoc, Format.infinity, ← hexp, Nat.div_add_mod']

theorem unpack_of_nan (hF : F.Proper) (hv : v < 2 ^ (F.p + F.w)) (h : NanPattern F v) :
    unpack F v = .nan (signOf F v) (v % 2 ^ (F.p - 1)) := by
  obtain ⟨s, M, hM, rfl⟩ := exists_pattern hF hv
  obtain ⟨hexp, hfrac⟩ := h
  rw [pattern_exp hM] at hexp
  rw [pattern_frac hM] at hfrac
  rw [unpack_pattern hM, if_pos hexp, if_neg hfrac, signOf_pattern hF hM, pattern_frac hM]

theorem unpack_ne_nan (h : ¬ NanPattern F v) (s : Bool) (f : Nat) : unpack F v ≠ .nan s f := by
  intro hu
  by_cases hexp : v / 2 ^ (F.p - 1) % 2 ^ F.w = 2 ^ F.w - 1
  · have hfrac : v % 2 ^ (F.p - 1) = 0 := by_contra fun h0 => h ⟨hexp, h0⟩
    simp [unpack, hexp, hfrac] at hu
  · simp only [unpack, if_neg hexp] at hu
    split_ifs at hu

theorem isSignalling_unpack (hF : F.Proper) (hv : v < 2 ^ (F.p + F.w)) :
    isSignalling F (unpack F v) = true ↔ LoudPattern F v := by
  by_cases h : NanPattern F v
  · rw [unpack_of_nan hF hv h, LoudPattern, and_iff_right h]
    exact decide_eq_true_iff
  · refine iff_of_false (fun hs => ?_) fun hl => h hl.1
    cases hu : unpack F v with
    | nan s f => exact unpack_ne_nan h s f hu
    | inf | zero | fin => simp [hu, isSignalling] at hs

/-! ## The NaN that an operate delivers -/

/-- The exceptions of an operate with a NaN: nv where a NaN is signalling. -/
theorem toNat_excIf_nv {c : Bool} {P : Prop} [Decidable P] (h : c = true ↔ P) :
    (excIf c excNv).toNat = if P then 16 else 0 := by
  simp only [← h]
  cases c <;> rfl

/-- From `F` to `G` the NaN `v` becomes the pattern `c`. -/
def Requiets (F G : Format) (v c : Nat) : Prop :=
  NanPattern F v → nanTo F G (signOf F v) (v % 2 ^ (F.p - 1)) = c

/-- R555: of two NaNs the second gives the result. -/
theorem nanResult_second (F G : Format) (a : FloatVal) (s : Bool) (f : Nat) : nanResult F G a (.nan s f) =
    some { bits := nanTo F G s f, exc := excIf (isSignalling F a || isSignalling F (.nan s f)) excNv } := by
  cases a <;> rfl

theorem nanResult_first (F G : Format) {b : FloatVal} (hb : ∀ s f, b ≠ .nan s f) (s : Bool) (f : Nat) :
    nanResult F G (.nan s f) b =
      some { bits := nanTo F G s f, exc := excIf (isSignalling F (.nan s f) || isSignalling F b) excNv } := by
  cases b with
  | nan s f => exact absurd rfl (hb s f)
  | inf | zero | fin => rfl

theorem nanResult_none (F G : Format) {a b : FloatVal} (ha : ∀ s f, a ≠ .nan s f) (hb : ∀ s f, b ≠ .nan s f) :
    nanResult F G a b = none := by
  cases b with
  | nan s f => exact absurd rfl (hb s f)
  | inf | zero | fin =>
    cases a with
    | nan s f => exact absurd rfl (ha s f)
    | inf | zero | fin => rfl

/-- R555: two operands. -/
theorem nanResult_delivers (hF : F.Proper) (hx : x < 2 ^ (F.p + F.w)) (hy : y < 2 ^ (F.p + F.w)) {c : Nat → Nat}
    (hc : ∀ v < 2 ^ (F.p + F.w), Requiets F G v (c v)) (d : FloatRes) :
    let r := (nanResult F G (unpack F x) (unpack F y)).getD d
    (NanPattern F y → r.bits = c y) ∧ (NanPattern F x → ¬ NanPattern F y → r.bits = c x) ∧
      (NanPattern F x ∨ NanPattern F y → r.exc.toNat = if LoudPattern F x ∨ LoudPattern F y then 16 else 0) := by
  have hloud : (isSignalling F (unpack F x) || isSignalling F (unpack F y)) = true ↔ LoudPattern F x ∨ LoudPattern F y := by
    rw [Bool.or_eq_true, isSignalling_unpack hF hx, isSignalling_unpack hF hy]
  by_cases ny : NanPattern F y
  · rw [unpack_of_nan hF hy ny] at hloud ⊢
    rw [nanResult_second]
    exact ⟨fun _ => hc y hy ny, fun _ h => absurd ny h, fun _ => toNat_excIf_nv hloud⟩
  by_cases nx : NanPattern F x
  · rw [unpack_of_nan hF hx nx] at hloud ⊢
    rw [nanResult_first F G (unpack_ne_nan ny)]
    exact ⟨fun h => absurd h ny, fun _ _ => hc x hx nx, fun _ => toNat_excIf_nv hloud⟩
  · exact ⟨fun h => absurd h ny, fun h => absurd h nx, fun h => (h.elim nx ny).elim⟩

/-- R555: in its own format a NaN keeps its pattern but for the quiet bit. -/
theorem quieted_of_nan (hF : F.Proper) (hv : v < 2 ^ (F.p + F.w)) (h : NanPattern F v) :
    quieted F (signOf F v) (v % 2 ^ (F.p - 1)) = v ||| 2 ^ (F.p - 2) := by
  rw [quieted_eq hF _ (Nat.mod_lt _ (by positivity)), ← eq_of_nan hF hv h]

theorem requiets_same (hF : F.Proper) (hv : v < 2 ^ (F.p + F.w)) : Requiets F F v (v ||| 2 ^ (F.p - 2)) := by
  intro h
  rw [nanTo, if_pos le_rfl, Nat.sub_self, pow_zero, Nat.mul_one, quieted_of_nan hF hv h]

/-- R578: the root of a NaN. -/
theorem floatSqrt_nan (hF : F.Proper) (hv : v < 2 ^ (F.p + F.w)) (h : NanPattern F v) (rm : BitVec 2) (ufm : Bool) :
    floatSqrt F rm ufm v = { bits := v ||| 2 ^ (F.p - 2), exc := excIf (isSignalling F (unpack F v)) excNv } := by
  rw [floatSqrt, unpack_of_nan hF hv h, ← quieted_of_nan hF hv h]
  rfl

/-- R588, R589: the conversion of a NaN to the other format. -/
theorem floatConvert_nan (hF : F.Proper) (hv : v < 2 ^ (F.p + F.w)) (h : NanPattern F v) {c : Nat} (hc : Requiets F G v c)
    (rm : BitVec 2) (ufm : Bool) :
    floatConvert F G rm ufm v = { bits := c, exc := excIf (isSignalling F (unpack F v)) excNv } := by
  rw [floatConvert, unpack_of_nan hF hv h, ← hc h]
  rfl

/-- R585: the conversion of a NaN to an integer. -/
theorem floatToInt_nan (hF : F.Proper) (hv : v < 2 ^ (F.p + F.w)) (h : NanPattern F v) :
    floatToInt F v = saturated (signOf F v) := by
  rw [floatToInt, unpack_of_nan hF hv h]

/-- The sign of a pattern as the number its top bit is. -/
theorem signBit_signOf (hF : F.Proper) (hv : v < 2 ^ (F.p + F.w)) (G : Format) :
    G.signBit (signOf F v) = v / 2 ^ (F.p + F.w - 1) * 2 ^ (G.p - 1 + G.w) := by
  obtain ⟨s, M, hM, rfl⟩ := exists_pattern hF hv
  rw [signOf_pattern hF hM, hF.width_eq]
  cases s <;> simp [Format.signBit, Nat.div_eq_of_lt hM]

end Nans

/-- R588: a single as a double. -/
theorem requiets_widened {v : Nat} (hv : v < 2 ^ (single.p + single.w)) :
    Requiets single double v (v / 2 ^ 31 * 2 ^ 63 + 0x7FF * 2 ^ 52 + v % 2 ^ 23 * 2 ^ 29 ||| 2 ^ 51) := by
  intro h
  have hfrac : v % 2 ^ 23 * 2 ^ 29 < 2 ^ (double.p - 1) := by
    have := Nat.mod_lt v (show 0 < 2 ^ 23 by decide)
    show _ < 2 ^ 52
    omega
  exact (quieted_eq double_proper _ hfrac).trans (by rw [signBit_signOf single_proper hv]; rfl)

/-- R589: a double as a single. -/
theorem requiets_narrowed {v : Nat} (hv : v < 2 ^ (double.p + double.w)) :
    Requiets double single v (v / 2 ^ 63 * 2 ^ 31 + 0xFF * 2 ^ 23 + v % 2 ^ 52 / 2 ^ 29 ||| 2 ^ 22) := by
  intro h
  have hfrac : v % 2 ^ 52 / 2 ^ 29 < 2 ^ (single.p - 1) := by
    have := Nat.mod_lt v (show 0 < 2 ^ 52 by decide)
    show _ < 2 ^ 23
    omega
  exact (quieted_eq single_proper _ hfrac).trans (by rw [signBit_signOf double_proper hv]; rfl)

/-- Settles O54: the dyadic operates by `nanResult`, the others by their NaN case. -/
theorem floatNans : Obligations.FloatNans := by
  intro F rm ufm x y hF hx hy q nan loud one widened narrowed
  have hp := proper_of_eq hF
  have same := nanResult_delivers hp hx hy (G := F) (c := (· ||| q)) fun v hv => requiets_same hp hv
  refine ⟨?_, fun h => ⟨?_, ?_, ?_, ?_⟩⟩
  · simp only [List.forall_mem_append, List.forall_mem_cons]
    refine ⟨⟨same _, same _, same _, same _, List.forall_mem_nil _⟩, fun f hf => ?_⟩
    split_ifs at hf with hs
    · obtain rfl := List.mem_singleton.mp hf
      subst hs
      exact nanResult_delivers hp hx hy (G := double) (fun v hv => requiets_widened hv) _
    · exact absurd hf List.not_mem_nil
  · rw [floatSqrt_nan hp hx h]
    exact ⟨rfl, toNat_excIf_nv (isSignalling_unpack hp hx)⟩
  · rintro rfl
    rw [floatConvert_nan hp hx h (requiets_widened hx)]
    exact ⟨rfl, toNat_excIf_nv (isSignalling_unpack hp hx)⟩
  · rintro rfl
    rw [floatConvert_nan hp hx h (requiets_narrowed hx)]
    exact ⟨rfl, toNat_excIf_nv (isSignalling_unpack hp hx)⟩
  · rw [floatToInt_nan hp hx h]
    rfl

end Sys2Proof.Machine
end

section
/-! Comparison: the key by which the model orders two patterns orders their values (44_floating_point.md, R592 to R595). -/

namespace Sys2Proof.Machine

open Sys2Proof.Spec

/-! ## Values with the infinities -/

/-- The value of the magnitude bits `M`, where those of infinity are beyond every number. -/
def extValue (F : Format) (M : Nat) : ℚ := if M = F.infinity then 2 ^ 2000 else magValue F M

section Order

variable {F : Format} {M K : Nat}

theorem extValue_strictMonoOn (hF : F.Proper) (hb : F.bias < 2000) : StrictMonoOn (extValue F) (Set.Iic F.infinity) := by
  intro M hM K hK hlt
  have hne : M ≠ F.infinity := (hlt.trans_le hK).ne
  rw [extValue, if_neg hne, extValue]
  split_ifs with h
  · calc magValue F M < magValue F F.infinity := magValue_strictMono hF (h ▸ hlt)
      _ = 2 ^ (F.bias + 1) := (magValue_infinity hF).1
      _ ≤ 2 ^ (2000 : Int) := zpow_le_zpow_right₀ one_le_two hb
      _ = 2 ^ 2000 := zpow_ofNat 2 2000
  · exact magValue_strictMono hF hlt

/-- The value of a number or an infinity. -/
theorem valueOf_pattern (hF : F.Proper) (hM : M ≤ F.infinity) (s : Bool) :
    valueOf (unpack F (F.signBit s + M)) = (if s then -1 else 1) * extValue F M := by
  obtain hlt | rfl := hM.lt_or_eq
  · rw [valueOf_number hF hlt, extValue, if_neg hlt.ne]
  · rw [unpack_infinity, extValue, if_pos rfl]
    cases s
    · exact (one_mul _).symm
    · exact (neg_one_mul _).symm

theorem orderKey_pattern (hM : M < 2 ^ (F.p - 1 + F.w)) (s : Bool) : orderKey F (F.signBit s + M) = signedInt s M := by
  rw [orderKey, pattern_sign hM, pattern_mod hM]

/-- Signed magnitudes are in the order of their signed values. -/
theorem signed_lt_iff {f : Nat → ℚ} {N : Nat} (hf : StrictMonoOn f (Set.Iic N)) (h0 : f 0 = 0) (hM : M ≤ N) (hK : K ≤ N)
    (s t : Bool) : (if s then -1 else 1) * f M < (if t then -1 else 1) * f K ↔ signedInt s M < signedInt t K := by
  have hlt {a b : Nat} (ha : a ≤ N) (hb : b ≤ N) : f a < f b ↔ a < b := hf.lt_iff_lt ha hb
  have hpos {a : Nat} (ha : a ≤ N) : 0 < f a ↔ 0 < a := by rw [← hlt (Nat.zero_le N) ha, h0]
  have hnonneg {a : Nat} (ha : a ≤ N) : 0 ≤ f a := h0 ▸ hf.monotoneOn (Nat.zero_le N) ha (Nat.zero_le a)
  have hM0 := hnonneg hM
  have hK0 := hnonneg hK
  cases s <;> cases t <;> simp only [signedInt, if_true, Bool.false_eq_true, if_false, one_mul, neg_one_mul]
  · rw [hlt hM hK, Nat.cast_lt]
  · exact iff_of_false (by linarith) (by omega)
  · have hval : -f M < f K ↔ 0 < f M ∨ 0 < f K :=
      ⟨fun h => by by_contra! hn; linarith, fun h => by obtain h | h := h <;> linarith⟩
    rw [hval, hpos hM, hpos hK]
    omega
  · rw [neg_lt_neg_iff, hlt hK hM]
    omega

theorem isNan_iff {x : Nat} : isNan F x = true ↔ ∃ s f, unpack F x = .nan s f := by
  rw [isNan]
  cases unpack F x <;> simp

/-- A pattern that is no NaN is a number or an infinity. -/
theorem exists_pattern_of_not_nan (hF : F.Proper) {x : Nat} (hx : x < 2 ^ (F.p + F.w)) (h : isNan F x ≠ true) :
    ∃ s M, M ≤ F.infinity ∧ x = F.signBit s + M := by
  obtain ⟨s, M, hM, rfl⟩ := exists_pattern hF hx
  exact ⟨s, M, not_lt.mp fun hlt => h (isNan_iff.mpr ⟨s, _, unpack_nan hlt hM s⟩), rfl⟩

/-- The keys of two patterns that are no NaN compare as their values do. -/
theorem orderKey_lt_iff (hF : F.Proper) (hb : F.bias < 2000) {x y : Nat} (hx : x < 2 ^ (F.p + F.w))
    (hy : y < 2 ^ (F.p + F.w)) (nx : isNan F x ≠ true) (ny : isNan F y ≠ true) :
    orderKey F x < orderKey F y ↔ valueOf (unpack F x) < valueOf (unpack F y) := by
  obtain ⟨s, M, hM, rfl⟩ := exists_pattern_of_not_nan hF hx nx
  obtain ⟨t, K, hK, rfl⟩ := exists_pattern_of_not_nan hF hy ny
  have h0 : extValue F 0 = 0 := by
    rw [extValue, if_neg hF.infinity_pos.ne, magValue_zero]
  rw [orderKey_pattern (hM.trans_lt (infinity_lt F)), orderKey_pattern (hK.trans_lt (infinity_lt F)),
    valueOf_pattern hF hM, valueOf_pattern hF hK, signed_lt_iff (extValue_strictMonoOn hF hb) h0 hM hK]

end Order

/-- R592, R594: what a compare of `x` and `y` answers, by what they stand for. -/
def ComparesTo (F : Format) (quietToo : Bool) (x y : Nat) (fcc : BitVec 2) (exc : BitVec 5) : Prop :=
  let unordered := ∃ sign frac, unpack F x = .nan sign frac ∨ unpack F y = .nan sign frac
  let a := valueOf (unpack F x)
  let b := valueOf (unpack F y)
  (unordered → fcc = 3 ∧ exc = if quietToo || isSignalling F (unpack F x) || isSignalling F (unpack F y) then 0x10 else 0) ∧
  (¬ unordered → exc = 0 ∧ (a = b → fcc = 0) ∧ (a < b → fcc = 1) ∧ (b < a → fcc = 2))

section Compare

variable {F : Format} {quietToo : Bool} {x y : Nat} {fcc : BitVec 2} {exc : BitVec 5}

theorem ComparesTo.exc_eq (h : ComparesTo F quietToo x y fcc exc) : exc = 0 ∨ exc = excNv := by
  by_cases hun : ∃ sign frac, unpack F x = .nan sign frac ∨ unpack F y = .nan sign frac
  · rw [(h.1 hun).2]
    exact (ite_eq_or_eq ..).symm
  · exact .inl (h.2 hun).1

variable (hF : F.Proper) (hb : F.bias < 2000) (hx : x < 2 ^ (F.p + F.w)) (hy : y < 2 ^ (F.p + F.w))
  (hc : ComparesTo F quietToo x y fcc exc)
include hF hb hx hy hc

theorem floatCompare_eq : floatCompare F quietToo x y = (fcc, exc) := by
  obtain ⟨hun, hord⟩ := hc
  have hnan : (∃ s f, unpack F x = .nan s f ∨ unpack F y = .nan s f) ↔ (isNan F x || isNan F y) = true := by
    simp only [exists_or, Bool.or_eq_true, isNan_iff]
  rw [hnan] at hun hord
  by_cases h : (isNan F x || isNan F y) = true
  · obtain ⟨rfl, rfl⟩ := hun h
    rw [floatCompare, if_pos h]
    rfl
  · obtain ⟨rfl, heq, hlt, hgt⟩ := hord h
    obtain ⟨nx, ny⟩ : isNan F x ≠ true ∧ isNan F y ≠ true := by simpa using h
    have hxy := orderKey_lt_iff hF hb hx hy nx ny
    have hyx := orderKey_lt_iff hF hb hy hx ny nx
    rw [floatCompare, if_neg h]
    obtain hc | hc | hc := lt_trichotomy (valueOf (unpack F x)) (valueOf (unpack F y))
    · have hk := hxy.mpr hc
      rw [if_neg hk.ne, if_pos hk, hlt hc]
    · have hk : orderKey F x = orderKey F y :=
        le_antisymm (not_lt.mp fun h => (hyx.mp h).ne' hc) (not_lt.mp fun h => (hxy.mp h).ne hc)
      rw [if_pos hk, heq hc]
    · have hk := hyx.mpr hc
      rw [if_neg hk.ne', if_neg hk.not_gt, hgt hc]

theorem completes_floatCompare {i : Instr} {s : State} (hr : FpReady s)
    (hi : exec i s = fpopCompare i (floatCompare F quietToo x y) s) :
    (exc &&& s.fsr.tem = 0 → Completes i s fun t => Advanced s t ∧
      t.fsr = { s.fsr with fcc := fcc, cexc := exc, aexc := s.fsr.aexc ||| exc, ftt := 0 } ∧ Frame { fsr := true } s t) ∧
    (exc &&& s.fsr.tem ≠ 0 → Completes i s fun t => Advanced s t ∧ Queued i s t ∧
      t.fsr = { s.fsr with cexc := exc, ftt := 1 } ∧ Frame { fsr := true, queue := true } s t) := by
  rw [floatCompare_eq hF hb hx hy hc] at hi
  exact completes_compare hr hc.exc_eq hi

end Compare

/-- Settles O56: each of the four compares answers what the values say. -/
theorem floatCompares : Obligations.FloatCompares := by
  intro rs1 rs2 s hr
  have hs : single.bias < 2000 := by decide
  have hd : double.bias < 2000 := by decide
  have word (w : Word) : w.toNat < 2 ^ (single.p + single.w) := w.isLt
  have dword (w : BitVec 64) : w.toNat < 2 ^ (double.p + double.w) := w.isLt
  simp only [List.forall_mem_cons]
  exact ⟨fun _ _ hun hord => completes_floatCompare single_proper hs (word _) (word _) ⟨hun, hord⟩ hr rfl,
    fun _ _ hun hord => completes_floatCompare double_proper hd (dword _) (dword _) ⟨hun, hord⟩ hr rfl,
    fun _ _ hun hord => completes_floatCompare single_proper hs (word _) (word _) ⟨hun, hord⟩ hr rfl,
    fun _ _ hun hord => completes_floatCompare double_proper hd (dword _) (dword _) ⟨hun, hord⟩ hr rfl,
    List.forall_mem_nil _⟩

end Sys2Proof.Machine
end

section
/-! Rounding, part 1: what `roundPack` computes from an exact magnitude (R552, R554): the place of the magnitude among the
values of the format, and whether it goes up from there. -/

namespace Sys2Proof.Machine

open Sys2Proof.Spec

/-! ## An exact magnitude and its leading bits -/

/-- The magnitude `X` is `m` units of `2 ^ e`, and a part of the next unit when `more`. -/
structure Cuts (m : Nat) (e : Int) (more : Bool) (X : ℝ) : Prop where
  ne_zero : m ≠ 0
  le : m * 2 ^ e ≤ X
  lt : X < (m + 1) * 2 ^ e
  exact_iff : more = false ↔ X = m * 2 ^ e

theorem cuts_exact {m : Nat} (h : m ≠ 0) (e : Int) : Cuts m e false (m * 2 ^ e) where
  ne_zero := h
  le := le_rfl
  lt := by gcongr; exact lt_add_one _
  exact_iff := iff_of_true rfl rfl

section Cuts

variable {m : Nat} {e : Int} {more : Bool} {X : ℝ} (h : Cuts m e more X)
include h

theorem Cuts.pos : 0 < X := by
  have := Nat.pos_of_ne_zero h.ne_zero
  exact lt_of_lt_of_le (by positivity) h.le

theorem Cuts.lt_mul_iff (c : Nat) : X < c * 2 ^ e ↔ m < c := by
  have hu : (0 : ℝ) < 2 ^ e := by positivity
  constructor
  · intro hc
    exact_mod_cast lt_of_mul_lt_mul_right (h.le.trans_lt hc) hu.le
  · intro hc
    exact h.lt.trans_le (mul_le_mul_of_nonneg_right (by exact_mod_cast hc) hu.le)

theorem Cuts.eq_mul_iff (c : Nat) : X = c * 2 ^ e ↔ c = m ∧ more = false := by
  have hu : (0 : ℝ) < 2 ^ e := by positivity
  constructor
  · intro hc
    have hle : m ≤ c := not_lt.mp fun hlt => (hc.trans_lt (by gcongr)).not_ge h.le
    have hge : ¬ m < c := fun hlt => ((h.lt_mul_iff c).mpr hlt).ne hc
    obtain rfl : c = m := by omega
    exact ⟨rfl, h.exact_iff.mpr hc⟩
  · rintro ⟨rfl, hm⟩
    exact h.exact_iff.mp hm

theorem Cuts.mul_lt_iff (c : Nat) : c * 2 ^ e < X ↔ c < m ∨ (c = m ∧ more = true) := by
  rw [lt_iff_le_and_ne, ← not_lt, h.lt_mul_iff, ne_comm, ne_eq, h.eq_mul_iff]
  cases more <;> simp <;> omega

/-- The magnitude lies between two powers of two. -/
theorem Cuts.two_pow_le : (2 : ℝ) ^ (Nat.log2 m + e) ≤ X := by
  refine le_trans ?_ h.le
  rw [zpow_add₀ two_ne_zero, zpow_natCast]
  gcongr
  exact_mod_cast Nat.log2_self_le h.ne_zero

theorem Cuts.lt_two_pow : X < (2 : ℝ) ^ (Nat.log2 m + e + 1) := by
  have hm : m < 2 ^ (Nat.log2 m + 1) := Nat.lt_log2_self
  refine ((h.lt_mul_iff _).mpr hm).trans_eq ?_
  rw [Nat.cast_pow, Nat.cast_ofNat, ← zpow_natCast, ← zpow_add₀ two_ne_zero]
  congr 1
  push_cast
  ring

theorem Cuts.lt_two_pow_iff (k : Int) : X < 2 ^ k ↔ Nat.log2 m + e < k := by
  constructor
  · intro hk
    exact (zpow_lt_zpow_iff_right₀ one_lt_two).mp (h.two_pow_le.trans_lt hk)
  · intro hk
    exact h.lt_two_pow.trans_le (zpow_le_zpow_right₀ one_le_two hk)

end Cuts

/-! ## The parts of `roundPack` -/

section Parts

variable (F : Format) (rm : BitVec 2) (ufm sign : Bool) (m : Nat) (e : Int) (more : Bool)

/-- The exponent of the last place of the result. -/
def lastPlace : Int := max (Nat.log2 m + e - (F.p - 1 : Nat)) F.least
/-- How many bits of `m` are below it. -/
def dropped : Nat := (lastPlace F m e - e).toNat
/-- The bits of `m` from the last place up. -/
def keptPart : Nat := m * 2 ^ (e - lastPlace F m e).toNat / 2 ^ dropped F m e
/-- The bits below. -/
def restPart : Nat := m * 2 ^ (e - lastPlace F m e).toNat % 2 ^ dropped F m e
/-- The magnitude bits of the result when it is not rounded up. -/
def lowerMag : Nat := (lastPlace F m e - F.least).toNat * 2 ^ (F.p - 1) + keptPart F m e
/-- Whether it is rounded up. -/
def goesUp : Bool :=
  if dropped F m e = 0 then false
  else roundsUp rm sign (keptPart F m e) (restPart F m e) (2 ^ (dropped F m e - 1)) more
/-- Whether the magnitude is below the normal numbers. -/
def isTiny : Bool := decide (Nat.log2 m + e - (F.p - 1 : Nat) < F.least)
/-- Whether anything is below the last place. -/
def isInexact : Bool := restPart F m e != 0 || more

/-- The result of rounding with magnitude bits `M`, one more when `up`. -/
def roundedResult (M : Nat) (up tiny inexact : Bool) : FloatRes :=
  if M + (if up then 1 else 0) ≥ F.infinity then overflowed F rm sign
  else
    { bits := F.signBit sign + (M + (if up then 1 else 0))
      exc := excIf (tiny && (ufm || inexact)) excUf ||| excIf inexact excNx }

theorem roundPack_eq : roundPack F rm ufm sign m e more =
    roundedResult F rm ufm sign (lowerMag F m e) (goesUp F rm sign m e more) (isTiny F m e) (isInexact F m e more) := rfl

theorem roundsUp_iff {kept rest half : Nat} : roundsUp rm sign kept rest half more = true ↔
    (rm = 0 ∧ ((half < rest ∨ (rest = half ∧ more = true)) ∨ ((rest = half ∧ more = false) ∧ kept % 2 = 1))) ∨
    (rm = 2 ∧ sign = false ∧ ¬ (rest = 0 ∧ more = false)) ∨ (rm = 3 ∧ sign = true ∧ ¬ (rest = 0 ∧ more = false)) := by
  unfold roundsUp
  obtain rfl | rfl | rfl | rfl : rm = 0 ∨ rm = 1 ∨ rm = 2 ∨ rm = 3 := by revert rm; decide
  · cases more <;> simp
  · simp
  · cases more <;> simp
  · cases more <;> simp

end Parts

/-! ## The last place -/

section LastPlace

variable {F : Format} {m : Nat} {e : Int}

theorem dropped_eq_zero_iff : dropped F m e = 0 ↔ lastPlace F m e ≤ e := by
  rw [dropped, Int.toNat_eq_zero]
  omega

/-- Nothing is below the last place: all of `m` is kept. -/
theorem kept_of_le (h : lastPlace F m e ≤ e) : restPart F m e = 0 ∧ (keptPart F m e : ℝ) * 2 ^ lastPlace F m e = m * 2 ^ e := by
  rw [restPart, keptPart, dropped_eq_zero_iff.mpr h, pow_zero, Nat.mod_one, Nat.div_one]
  refine ⟨rfl, ?_⟩
  rw [Nat.cast_mul, Nat.cast_pow, Nat.cast_ofNat, mul_assoc, ← zpow_natCast, ← zpow_add₀ two_ne_zero]
  congr 2
  omega

/-- Otherwise the bits of `m` are split at the last place. -/
theorem split_of_lt (h : e < lastPlace F m e) : keptPart F m e * 2 ^ dropped F m e + restPart F m e = m := by
  rw [keptPart, restPart, Nat.div_add_mod', show (e - lastPlace F m e).toNat = 0 by omega, pow_zero, Nat.mul_one]

theorem restPart_lt : restPart F m e < 2 ^ dropped F m e := Nat.mod_lt _ (by positivity)

/-- So many units of the last place, in units of `2 ^ e`. -/
theorem mul_two_pow_lastPlace (h : e < lastPlace F m e) (c : Nat) :
    (c : ℝ) * 2 ^ lastPlace F m e = ((c * 2 ^ dropped F m e : Nat) : ℝ) * 2 ^ e := by
  rw [Nat.cast_mul, Nat.cast_pow, Nat.cast_ofNat, mul_assoc, ← zpow_natCast, ← zpow_add₀ two_ne_zero, dropped]
  congr 2
  omega

end LastPlace

/-! ## The place among the values -/

/-- The rule of rounding in terms of the two values next to the magnitude `X`, those of `M` and `M + 1` (R552). -/
def RoundsUp (F : Format) (rm : BitVec 2) (sign : Bool) (M : Nat) (X : ℝ) : Prop :=
  let lo : ℝ := magValue F M
  let mid : ℝ := (magValue F M + magValue F (M + 1)) / 2
  (rm = 0 ∧ (mid < X ∨ (X = mid ∧ M % 2 = 1))) ∨ (rm = 2 ∧ sign = false ∧ X ≠ lo) ∨ (rm = 3 ∧ sign = true ∧ X ≠ lo)

/-- `M` is the place of the magnitude `X` among the values of the format, and the flags say what rounding needs to know. -/
structure Rounding (F : Format) (rm : BitVec 2) (sign : Bool) (X : ℝ) (M : Nat) (up tiny inexact : Bool) : Prop where
  le : magValue F M ≤ X
  lt : X < magValue F (M + 1)
  up_iff : up = true ↔ RoundsUp F rm sign M X
  tiny_iff : tiny = true ↔ X < 2 ^ (1 - F.bias)
  inexact_iff : inexact = true ↔ X ≠ magValue F M

section Place

variable {F : Format} {m : Nat} {e : Int} {more : Bool} {X : ℝ} (h : Cuts m e more X) (hm : more = true → 2 ^ F.p ≤ m)

theorem lt_lastPlace_of_more (hF : F.Proper) (hm : 2 ^ F.p ≤ m) : e < lastPlace F m e := by
  have := hF.p
  have hlog : F.p ≤ Nat.log2 m := (Nat.le_log2 (by have := Nat.two_pow_pos F.p; omega)).mpr hm
  rw [lastPlace]
  omega

include h hm

/-- The magnitude in units of the last place, its half units, and what is left over. -/
theorem kept_spec (hF : F.Proper) (rm : BitVec 2) (sign : Bool) :
    let k := keptPart F m e
    let u : ℝ := 2 ^ lastPlace F m e
    k * u ≤ X ∧ X < (k + 1) * u ∧ (isInexact F m e more = true ↔ X ≠ k * u) ∧
      (goesUp F rm sign m e more = true ↔
        (rm = 0 ∧ ((k + 1 / 2) * u < X ∨ (X = (k + 1 / 2) * u ∧ k % 2 = 1))) ∨
        (rm = 2 ∧ sign = false ∧ X ≠ k * u) ∨ (rm = 3 ∧ sign = true ∧ X ≠ k * u)) := by
  intro k u
  have hu : 0 < u := by positivity
  rw [isInexact, goesUp]
  by_cases hq : lastPlace F m e ≤ e
  · obtain ⟨hrest, hk⟩ := kept_of_le hq
    have hmore : more = false := by
      by_contra hmore
      exact hq.not_gt (lt_lastPlace_of_more hF (hm (by simpa using hmore)))
    have hX : X = k * u := (h.exact_iff.mp hmore).trans hk.symm
    have hlt : X < (k + 1 / 2) * u := by rw [hX]; gcongr; norm_num
    refine ⟨hX.ge, hlt.trans (by gcongr; norm_num), iff_of_false (by simp [hrest, hmore]) (not_not.mpr hX),
      iff_of_false (by simp [dropped_eq_zero_iff.mpr hq]) ?_⟩
    rintro (⟨-, hup | ⟨heq, -⟩⟩ | ⟨-, -, hne⟩ | ⟨-, -, hne⟩)
    · exact hup.not_gt hlt
    · exact hlt.ne heq
    · exact hne hX
    · exact hne hX
  · rw [not_le] at hq
    have hsplit : k * 2 ^ dropped F m e + restPart F m e = m := split_of_lt hq
    have hlt := restPart_lt (F := F) (m := m) (e := e)
    have hd : dropped F m e ≠ 0 := fun hd => hq.not_ge (dropped_eq_zero_iff.mp hd)
    have hhalf : 2 ^ dropped F m e = 2 * 2 ^ (dropped F m e - 1) := by
      rw [← pow_succ']
      congr 1
      omega
    have hk : (k : ℝ) * u = ((k * 2 ^ dropped F m e : Nat) : ℝ) * 2 ^ e := mul_two_pow_lastPlace hq k
    have hk1 : ((k : ℝ) + 1) * u = (((k + 1) * 2 ^ dropped F m e : Nat) : ℝ) * 2 ^ e := by
      rw [← mul_two_pow_lastPlace hq, Nat.cast_succ]
    have hmid : ((k : ℝ) + 1 / 2) * u = ((k * 2 ^ dropped F m e + 2 ^ (dropped F m e - 1) : Nat) : ℝ) * 2 ^ e := by
      have hsum : ((k : ℝ) + 1 / 2) * u = (k * u + (k + 1) * u) / 2 := by ring
      rw [hsum, hk, hk1, hhalf]
      push_cast
      ring
    have hlo : X = k * u ↔ restPart F m e = 0 ∧ more = false := by
      rw [hk, h.eq_mul_iff]
      exact and_congr_left' (by omega)
    refine ⟨?_, ?_, ?_, ?_⟩
    · rw [hk, ← not_lt, h.lt_mul_iff]
      omega
    · rw [hk1, h.lt_mul_iff, Nat.succ_mul]
      omega
    · rw [ne_eq, hlo]
      cases more <;> simp
    · have hup : (k + 1 / 2) * u < X ↔ 2 ^ (dropped F m e - 1) < restPart F m e ∨
          (restPart F m e = 2 ^ (dropped F m e - 1) ∧ more = true) := by
        rw [hmid, h.mul_lt_iff]
        exact or_congr (by omega) (and_congr_left' (by omega))
      have htie : X = (k + 1 / 2) * u ↔ restPart F m e = 2 ^ (dropped F m e - 1) ∧ more = false := by
        rw [hmid, h.eq_mul_iff]
        exact and_congr_left' (by omega)
      rw [if_neg hd, roundsUp_iff, hup, htie, ne_eq, hlo]

/-- What is kept fits the precision and, above the least exponent, fills it. -/
theorem keptPart_lt (hF : F.Proper) : keptPart F m e < 2 ^ F.p := by
  obtain ⟨hle, -⟩ := kept_spec h hm hF 0 false
  have hp := hF.p
  have hX : X < 2 ^ F.p * 2 ^ lastPlace F m e := by
    rw [← zpow_natCast, ← zpow_add₀ two_ne_zero, h.lt_two_pow_iff, lastPlace]
    omega
  exact_mod_cast lt_of_mul_lt_mul_right (hle.trans_lt hX) (by positivity)

theorem le_keptPart (hF : F.Proper) (hq : lastPlace F m e ≠ F.least) : 2 ^ (F.p - 1) ≤ keptPart F m e := by
  obtain ⟨-, hlt, -⟩ := kept_spec h hm hF 0 false
  have hX : 2 ^ (F.p - 1) * 2 ^ lastPlace F m e ≤ X := by
    rw [← zpow_natCast, ← zpow_add₀ two_ne_zero, ← not_lt, h.lt_two_pow_iff]
    rw [lastPlace] at hq ⊢
    omega
  exact Nat.lt_succ_iff.mp (by exact_mod_cast lt_of_mul_lt_mul_right (hX.trans_lt hlt) (by positivity))

/-- `roundPack` rounds at the place of the magnitude. -/
theorem rounding_roundPack (hF : F.Proper) (rm : BitVec 2) (sign : Bool) :
    Rounding F rm sign X (lowerMag F m e) (goesUp F rm sign m e more) (isTiny F m e) (isInexact F m e more) := by
  obtain ⟨hle, hlt, hinexact, hup⟩ := kept_spec h hm hF rm sign
  have hkp := keptPart_lt h hm hF
  have hplace : (lastPlace F m e - F.least).toNat = 0 ∨ 2 ^ (F.p - 1) ≤ keptPart F m e :=
    or_iff_not_imp_left.mpr fun hn => le_keptPart h hm hF fun he => hn (by simp [he])
  have hexp : F.least + (lastPlace F m e - F.least).toNat = lastPlace F m e := by
    have : F.least ≤ lastPlace F m e := le_max_right ..
    omega
  have hlo : (magValue F (lowerMag F m e) : ℝ) = keptPart F m e * 2 ^ lastPlace F m e := by
    rw [lowerMag, magValue_mul_add hF hkp.le hplace, hexp]
    push_cast
    rfl
  have hhi : (magValue F (lowerMag F m e + 1) : ℝ) = (keptPart F m e + 1) * 2 ^ lastPlace F m e := by
    rw [lowerMag, Nat.add_assoc, magValue_mul_add hF hkp (hplace.imp_right fun h => h.trans (Nat.le_succ _)), hexp]
    push_cast
    rfl
  have hmid : ((magValue F (lowerMag F m e) : ℝ) + magValue F (lowerMag F m e + 1)) / 2 =
      (keptPart F m e + 1 / 2) * 2 ^ lastPlace F m e := by
    rw [hlo, hhi]
    ring
  have hodd : lowerMag F m e % 2 = keptPart F m e % 2 := by
    obtain ⟨j, hj⟩ := Nat.exists_eq_add_of_le hF.p
    rw [lowerMag, hj, show 2 + j - 1 = j + 1 by omega, pow_succ, ← mul_assoc, Nat.mul_add_mod']
  refine ⟨hlo ▸ hle, hhi ▸ hlt, ?_, ?_, hlo ▸ hinexact⟩
  · rw [RoundsUp, hmid, hodd, hlo]
    exact hup
  · rw [isTiny, decide_eq_true_eq, h.lt_two_pow_iff, Format.least]
    have := hF.p
    omega

end Place

end Sys2Proof.Machine
end

section
/-! Rounding, part 2: a result that is rounded at the place of its magnitude is the number rounded once, in the sense of
`Spec.RoundedTo`, or overflows (R552, R554). -/

namespace Sys2Proof.Machine

open Sys2Proof.Spec

/-! ## Signs -/

/-- A magnitude with a sign. -/
def signedReal (sign : Bool) (X : ℝ) : ℝ := if sign then -X else X

@[simp] theorem signedReal_false (X : ℝ) : signedReal false X = X := rfl
@[simp] theorem signedReal_true (X : ℝ) : signedReal true X = -X := rfl

theorem abs_signedReal {X : ℝ} (hX : 0 ≤ X) (s : Bool) : |signedReal s X| = X := by
  cases s
  · exact abs_of_nonneg hX
  · exact (abs_neg X).trans (abs_of_nonneg hX)

theorem signedReal_mul (s : Bool) (X Y : ℝ) : signedReal s X * signedReal s Y = X * Y := by
  cases s
  · rfl
  · exact neg_mul_neg X Y

theorem signedReal_inj {s : Bool} {X Y : ℝ} : signedReal s X = signedReal s Y ↔ X = Y := by
  cases s
  · rfl
  · exact neg_inj

theorem signedReal_neg_iff {X : ℝ} (hX : 0 < X) (s : Bool) : signedReal s X < 0 ↔ s = true := by
  cases s
  · exact iff_of_false hX.not_gt nofun
  · exact iff_of_true (neg_neg_iff_pos.mpr hX) rfl

theorem abs_signedReal_sub (s : Bool) (X Y : ℝ) : |signedReal s X - signedReal s Y| = |X - Y| := by
  cases s
  · rfl
  · exact (congrArg abs (by simp only [signedReal_true]; ring)).trans (abs_sub_comm Y X)

/-- Two magnitudes with different signs are as far apart as their sum. -/
theorem abs_signedReal_sub_of_ne {X Y : ℝ} (hX : 0 ≤ X) (hY : 0 ≤ Y) {s t : Bool} (h : s ≠ t) :
    |signedReal s X - signedReal t Y| = X + Y := by
  cases s <;> cases t
  · exact absurd rfl h
  · rw [signedReal_false, signedReal_true, sub_neg_eq_add, abs_of_nonneg (by linarith)]
  · rw [signedReal_false, signedReal_true, abs_of_nonpos (by linarith)]
    ring
  · exact absurd rfl h

section Rounding

variable {F : Format} {rm : BitVec 2} {sign : Bool} {X : ℝ} {M : Nat} {up tiny inexact : Bool} (hF : F.Proper)
  (h : Rounding F rm sign X M up tiny inexact)

/-! ## The place among the values -/

/-- The values as real numbers are in the order of the magnitude bits. -/
theorem realValue_strictMono (hF : F.Proper) : StrictMono fun N => (magValue F N : ℝ) := fun _ _ hlt =>
  Rat.cast_lt.mpr (magValue_strictMono hF hlt)

theorem realValue_nonneg (F : Format) (N : Nat) : (0 : ℝ) ≤ magValue F N := Rat.cast_nonneg.mpr (magValue_nonneg F N)

/-- The largest finite value and the one that would follow, as real numbers. -/
theorem realValue_infinity (hF : F.Proper) : (magValue F F.infinity : ℝ) = 2 ^ (F.bias + 1) ∧
    (magValue F (F.infinity - 1) : ℝ) = 2 ^ (F.bias + 1) - 2 ^ (F.bias + 1 - F.p) := by
  obtain ⟨hinf, hmax⟩ := magValue_infinity hF
  rw [hinf, hmax]
  push_cast
  exact ⟨rfl, rfl⟩

/-- Overflow in terms of the largest finite value and the one that would follow. -/
theorem overflows_iff_values (hF : F.Proper) (rm : BitVec 2) (x : ℝ) : Overflows F rm x ↔
    magValue F F.infinity ≤ |x| ∨
    (rm = 0 ∧ (magValue F (F.infinity - 1) + magValue F F.infinity : ℝ) / 2 ≤ |x|) ∨
    (rm = 2 ∧ magValue F (F.infinity - 1) < x) ∨ (rm = 3 ∧ x < -magValue F (F.infinity - 1)) := by
  obtain ⟨hinf, hmax⟩ := realValue_infinity hF
  have hmid : ((2 : ℝ) ^ (F.bias + 1) - 2 ^ (F.bias + 1 - F.p) + 2 ^ (F.bias + 1)) / 2 =
      2 ^ (F.bias + 1) - 2 ^ (F.bias + 1 - F.p) / 2 := by ring
  rw [hmax, hinf, hmid]
  rfl

theorem infinity_even (hF : F.Proper) : F.infinity % 2 = 0 := by
  obtain ⟨j, hj⟩ := Nat.exists_eq_add_of_le hF.p
  rw [Format.infinity, hj, show 2 + j - 1 = j + 1 by omega, pow_succ, ← mul_assoc, Nat.mul_mod_left]

/-! ## The delivered pattern -/

/-- R552: what an overflow delivers, in the words of the statement. -/
theorem overflowed_eq (hF : F.Proper) (rm : BitVec 2) (sign : Bool) : overflowed F rm sign = signedResult F sign
    (if rm = 0 ∨ (rm = 2 ∧ sign = false) ∨ (rm = 3 ∧ sign = true) then infinityBits F else infinityBits F - 1) 9 := by
  rw [signedResult_eq hF]
  rfl

theorem overflowed_sign (hF : F.Proper) (rm : BitVec 2) (sign : Bool) : signOf F (overflowed F rm sign).bits = sign := by
  refine signOf_pattern hF ?_ sign
  have := infinity_lt F
  split_ifs <;> omega

/-- The exceptions of a result that does not overflow. -/
theorem exc_bits : ∀ u n : Bool, let exc := excIf u excUf ||| excIf n excNx
    exc.getLsbD 3 = false ∧ exc.getLsbD 4 = false ∧ exc.getLsbD 1 = false ∧ exc.getLsbD 0 = n ∧ exc.getLsbD 2 = u := by
  decide

theorem valueOf_signedReal (hF : F.Proper) {N : Nat} (hN : N < F.infinity) (t : Bool) :
    ((valueOf (unpack F (F.signBit t + N)) : ℚ) : ℝ) = signedReal t (magValue F N) := by
  rw [valueOf_number hF hN]
  cases t <;> simp [signedReal]

theorem pattern_even (hF : F.Proper) (s : Bool) (N : Nat) : (F.signBit s + N) % 2 = N % 2 := by
  obtain ⟨j, hj⟩ := Nat.exists_eq_add_of_le hF.p
  rw [Format.signBit, hj, show 2 + j - 1 + F.w = j + F.w + 1 by omega, pow_succ]
  split_ifs <;> omega

/-! ## The place of the magnitude -/

include hF h

theorem Rounding.le_of_value_le {N : Nat} (hN : magValue F N ≤ X) : N ≤ M :=
  Nat.lt_succ_iff.mp ((realValue_strictMono hF).lt_iff_lt.mp (hN.trans_lt h.lt))

theorem Rounding.le_of_le_value {N : Nat} (hN : N ≤ M) : magValue F N ≤ X :=
  ((realValue_strictMono hF).monotone hN).trans h.le

/-- Rounding up never goes up from an exact value. -/
theorem Rounding.ne_of_up (hup : up = true) : X ≠ magValue F M := by
  have hlt : (magValue F M : ℝ) < magValue F (M + 1) := realValue_strictMono hF (Nat.lt_succ_self M)
  obtain ⟨-, hmid | ⟨hmid, -⟩⟩ | ⟨-, -, hne⟩ | ⟨-, -, hne⟩ := h.up_iff.mp hup
  · exact fun heq => by linarith
  · exact fun heq => by linarith
  · exact hne
  · exact hne

/-! ## The magnitude that is delivered -/

/-- It is exact when nothing is left over, and then it is not one more. -/
theorem Rounding.exact_iff : (magValue F (M + if up then 1 else 0) : ℝ) = X ↔ inexact = false := by
  rw [← Bool.not_eq_true, h.inexact_iff, not_not]
  cases hup : up with
  | false => exact eq_comm
  | true => exact iff_of_false h.lt.ne' (h.ne_of_up hF hup)

/-- To nearest, ties to even. -/
theorem Rounding.nearest (h0 : rm = 0) (N : Nat) :
    let y : ℝ := magValue F (M + if up then 1 else 0)
    |y - X| ≤ |magValue F N - X| ∧
      (|y - X| = |magValue F N - X| → (magValue F N : ℝ) ≠ y → (M + if up then 1 else 0) % 2 = 0) := by
  have hmid : up = true ↔ (magValue F M + magValue F (M + 1) : ℝ) / 2 < X ∨
      (X = (magValue F M + magValue F (M + 1) : ℝ) / 2 ∧ M % 2 = 1) := by
    rw [h.up_iff, RoundsUp, h0]
    simp
  have hlo := h.le
  have hhi := h.lt
  have hlow : |(magValue F M : ℝ) - X| = X - magValue F M := by rw [abs_of_nonpos (by linarith), neg_sub]
  have hhigh : |(magValue F (M + 1) : ℝ) - X| = magValue F (M + 1) - X := abs_of_pos (by linarith)
  obtain hN | hN := Nat.lt_or_ge M N
  · have hv : (magValue F (M + 1) : ℝ) ≤ magValue F N := (realValue_strictMono hF).monotone hN
    rw [abs_of_pos (show 0 < (magValue F N : ℝ) - X by linarith)]
    cases hup : up with
    | false =>
      obtain ⟨hle, htie⟩ := not_or.mp (mt hmid.mpr (Bool.not_eq_true up ▸ hup))
      refine ⟨hlow.trans_le (by linarith), fun heq _ => ?_⟩
      have : M % 2 ≠ 1 := fun hodd => htie ⟨by linarith [hlow.symm.trans heq], hodd⟩
      exact Nat.mod_two_ne_one.mp this
    | true =>
      refine ⟨hhigh.trans_le (by linarith), fun heq hne => absurd ?_ hne⟩
      show (magValue F N : ℝ) = magValue F (M + 1)
      linarith [hhigh.symm.trans heq]
  · have hv : (magValue F N : ℝ) ≤ magValue F M := (realValue_strictMono hF).monotone hN
    rw [abs_of_nonpos (show (magValue F N : ℝ) - X ≤ 0 by linarith), neg_sub]
    cases hup : up with
    | false =>
      refine ⟨hlow.trans_le (by linarith), fun heq hne => absurd ?_ hne⟩
      show (magValue F N : ℝ) = magValue F M
      linarith [hlow.symm.trans heq]
    | true =>
      have hge := hmid.mp hup
      refine ⟨hhigh.trans_le (by obtain h | ⟨h, -⟩ := hge <;> linarith), fun heq _ => ?_⟩
      have hodd : M % 2 = 1 := (hge.resolve_left fun hlt => by linarith [hhigh.symm.trans heq]).2
      show (M + 1) % 2 = 0
      omega

/-- Toward zero: the greatest value that does not exceed the magnitude. -/
theorem Rounding.toward_zero (hup : up = false) (N : Nat) :
    let y : ℝ := magValue F (M + if up then 1 else 0)
    y ≤ X ∧ (magValue F N ≤ X → magValue F N ≤ y) := by
  subst hup
  exact ⟨h.le, fun hN => (realValue_strictMono hF).monotone (h.le_of_value_le hF hN)⟩

/-- Away from zero: the least value that the magnitude does not exceed. -/
theorem Rounding.away_from_zero (hup : up = true ↔ X ≠ magValue F M) (N : Nat) :
    let y : ℝ := magValue F (M + if up then 1 else 0)
    X ≤ y ∧ (X ≤ magValue F N → y ≤ magValue F N) := by
  cases hu : up with
  | false =>
    have hX : X = magValue F M := not_not.mp (mt hup.mpr (Bool.not_eq_true up ▸ hu))
    exact ⟨hX.le, fun hN => hX.symm.trans_le hN⟩
  | true =>
    have hlt : magValue F M < X := lt_of_le_of_ne h.le (hup.mp hu).symm
    exact ⟨h.lt.le, fun hN => (realValue_strictMono hF).monotone ((realValue_strictMono hF).lt_iff_lt.mp (hlt.trans_le hN))⟩

/-! ## Overflow -/

/-- R552: the delivered magnitude is beyond the numbers exactly when the number overflows. -/
theorem Rounding.overflows_iff {x : ℝ} (hX : 0 < X) (hx : x = signedReal sign X) :
    F.infinity ≤ M + (if up then 1 else 0) ↔ Overflows F rm x := by
  have habs : |x| = X := by
    rw [hx, abs_signedReal hX.le]
  have hle := h.le
  have hlt := h.lt
  rw [overflows_iff_values hF, habs]
  obtain hM | hM | hM : F.infinity ≤ M ∨ F.infinity = M + 1 ∨ M + 1 < F.infinity := by omega
  · exact iff_of_true (hM.trans (Nat.le_add_right ..)) (.inl (h.le_of_le_value hF hM))
  · have hup : M + 1 ≤ M + (if up then 1 else 0) ↔ up = true := by cases up <;> simp
    have hodd : M % 2 = 1 := by
      have := infinity_even hF
      omega
    have hM0 := realValue_nonneg F M
    have hne : X ≠ magValue F M ↔ magValue F M < X := ⟨fun hne => lt_of_le_of_ne hle hne.symm, ne_of_gt⟩
    rw [hM, Nat.add_sub_cancel, hup, h.up_iff, RoundsUp, or_iff_right hlt.not_ge]
    refine or_congr (and_congr_right fun _ => ?_) (or_congr (and_congr_right fun _ => ?_) (and_congr_right fun _ => ?_))
    · rw [and_iff_left hodd, le_iff_lt_or_eq, eq_comm]
    · cases sign with
      | false => simpa [hx] using hne
      | true => exact iff_of_false (fun hs => nomatch hs.1) (by simp only [hx, signedReal_true]; linarith)
    · cases sign with
      | false => exact iff_of_false (fun hs => nomatch hs.1) (by simp only [hx, signedReal_false]; linarith)
      | true => simpa [hx] using hne
  · have hnext : (magValue F (M + 1) : ℝ) ≤ magValue F (F.infinity - 1) :=
      (realValue_strictMono hF).monotone (by omega)
    have hmax : (magValue F (F.infinity - 1) : ℝ) < magValue F F.infinity :=
      realValue_strictMono hF (by have := hF.infinity_pos; omega)
    have hxX := abs_le.mp habs.le
    refine iff_of_false (by cases up <;> simp <;> omega) ?_
    rintro (hge | ⟨-, hge⟩ | ⟨-, hgt⟩ | ⟨-, hlt'⟩) <;> linarith

/-! ## Directions -/

/-- To nearest, whatever the signs. -/
theorem Rounding.nearest_signed (hX : 0 < X) (h0 : rm = 0) (t : Bool) (N : Nat) :
    let y : ℝ := signedReal sign (magValue F (M + if up then 1 else 0))
    let z : ℝ := signedReal t (magValue F N)
    let x : ℝ := signedReal sign X
    |y - x| ≤ |z - x| ∧ (|y - x| = |z - x| → z ≠ y → (M + if up then 1 else 0) % 2 = 0) := by
  intro y z x
  have hyx : |y - x| = |magValue F (M + if up then 1 else 0) - X| := abs_signedReal_sub ..
  obtain ⟨hle, htie⟩ := h.nearest hF h0 N
  by_cases ht : t = sign
  · subst ht
    have hzx : |z - x| = |magValue F N - X| := abs_signedReal_sub ..
    rw [hyx, hzx]
    exact ⟨hle, fun heq hne => htie heq fun he => hne (congrArg (signedReal t) he)⟩
  · have hN := realValue_nonneg F N
    have hzx : |z - x| = magValue F N + X := abs_signedReal_sub_of_ne hN hX.le ht
    obtain ⟨hle0, htie0⟩ := h.nearest hF h0 0
    have h0X : |(magValue F 0 : ℝ) - X| = X := by simp [abs_of_pos hX]
    rw [h0X] at hle0 htie0
    rw [hyx, hzx]
    refine ⟨by linarith, fun heq hne => htie0 (by linarith) fun hy0 => hne ?_⟩
    have hz0 : (magValue F N : ℝ) = 0 := by linarith
    simp [z, y, hz0, ← hy0, signedReal]

/-- Up: the least value that the number does not exceed. -/
theorem Rounding.upward (hX : 0 < X) (h2 : rm = 2) (t : Bool) (N : Nat) :
    let y : ℝ := signedReal sign (magValue F (M + if up then 1 else 0))
    let z : ℝ := signedReal t (magValue F N)
    signedReal sign X ≤ y ∧ (signedReal sign X ≤ z → y ≤ z) := by
  intro y z
  have hN := realValue_nonneg F N
  have hy := realValue_nonneg F (M + if up then 1 else 0)
  cases sign with
  | false =>
    have hup : up = true ↔ X ≠ magValue F M := by simp [h.up_iff, RoundsUp, h2]
    obtain ⟨hle, hleast⟩ := h.away_from_zero hF hup N
    refine ⟨hle, fun hz => ?_⟩
    cases t with
    | false => exact hleast hz
    | true => exact absurd hz (by simp only [z, signedReal_true, signedReal_false]; linarith)
  | true =>
    have hup : up = false := by simp [← Bool.not_eq_true, h.up_iff, RoundsUp, h2]
    obtain ⟨hle, hgreatest⟩ := h.toward_zero hF hup N
    refine ⟨neg_le_neg hle, fun hz => ?_⟩
    cases t with
    | false => exact (neg_nonpos.mpr hy).trans hN
    | true => exact neg_le_neg (hgreatest (neg_le_neg_iff.mp hz))

/-- Down: the greatest value that does not exceed the number. -/
theorem Rounding.downward (hX : 0 < X) (h3 : rm = 3) (t : Bool) (N : Nat) :
    let y : ℝ := signedReal sign (magValue F (M + if up then 1 else 0))
    let z : ℝ := signedReal t (magValue F N)
    y ≤ signedReal sign X ∧ (z ≤ signedReal sign X → z ≤ y) := by
  intro y z
  have hN := realValue_nonneg F N
  have hy := realValue_nonneg F (M + if up then 1 else 0)
  cases sign with
  | false =>
    have hup : up = false := by simp [← Bool.not_eq_true, h.up_iff, RoundsUp, h3]
    obtain ⟨hle, hgreatest⟩ := h.toward_zero hF hup N
    refine ⟨hle, fun hz => ?_⟩
    cases t with
    | false => exact hgreatest hz
    | true => exact (neg_nonpos.mpr hN).trans hy
  | true =>
    have hup : up = true ↔ X ≠ magValue F M := by simp [h.up_iff, RoundsUp, h3]
    obtain ⟨hle, hleast⟩ := h.away_from_zero hF hup N
    refine ⟨neg_le_neg hle, fun hz => ?_⟩
    cases t with
    | false => exact absurd hz (by simp only [z, signedReal_true, signedReal_false]; linarith)
    | true => exact neg_le_neg (hleast (neg_le_neg_iff.mp hz))

/-! ## The result -/

/-- A result rounded at the place of the magnitude is the number rounded once. -/
theorem Rounding.roundedTo (hX : 0 < X) (ufm : Bool) :
    RoundedTo F rm ufm (signedReal sign X) (roundedResult F rm ufm sign M up tiny inexact) := by
  have hover := h.overflows_iff hF hX rfl
  have hneg := signedReal_neg_iff hX sign
  by_cases hR : F.infinity ≤ M + if up then 1 else 0
  · rw [roundedResult, if_pos hR]
    refine ⟨fun neg hn => ?_, fun ho => absurd (hover.mp hR) ho⟩
    obtain rfl : neg = sign := Bool.eq_iff_iff.mpr (hn.trans hneg)
    exact ⟨overflowed_sign hF rm neg, fun _ => overflowed_eq hF rm neg⟩
  · have hlt := not_le.mp hR
    have hlt' := hlt.trans (infinity_lt F)
    obtain ⟨hof, hnv, hdz, hnx, huf⟩ := exc_bits (tiny && (ufm || inexact)) inexact
    rw [roundedResult, if_neg hR]
    refine ⟨fun neg hn => ?_, fun _ => ?_⟩
    · obtain rfl : neg = sign := Bool.eq_iff_iff.mpr (hn.trans hneg)
      exact ⟨signOf_pattern hF hlt' neg, fun ho => absurd (hover.mpr ho) hR⟩
    · have hexact : signedReal sign (magValue F (M + if up then 1 else 0)) ≠ signedReal sign X ↔ inexact = true := by
        rw [ne_eq, signedReal_inj, h.exact_iff hF, Bool.not_eq_false]
      simp only [valueOf_signedReal hF hlt, abs_signedReal hX.le, pattern_even hF]
      refine ⟨(finite_pattern_iff hF hlt' sign).mpr hlt, hof, hnv, hdz, ?_, ?_, fun b hb => ?_⟩
      · rw [hnx, hexact]
      · rw [huf, Bool.and_eq_true, Bool.or_eq_true, h.tiny_iff, hexact]
      · obtain ⟨t, N, hN, rfl⟩ := (finite_iff hF).mp hb
        simp only [valueOf_signedReal hF hN]
        refine ⟨fun h0 => h.nearest_signed hF hX h0 t N, fun h1 => ?_, fun h2 => h.upward hF hX h2 t N,
          fun h3 => h.downward hF hX h3 t N⟩
        have hup : up = false := by simp [← Bool.not_eq_true, h.up_iff, RoundsUp, h1]
        obtain ⟨hle, hgreatest⟩ := h.toward_zero hF hup N
        have hy := realValue_nonneg F (M + if up then 1 else 0)
        rw [abs_signedReal hy, abs_signedReal (realValue_nonneg F N), signedReal_mul]
        exact ⟨hle, by positivity, hgreatest⟩

end Rounding

/-- `roundPack` rounds an exact magnitude once. -/
theorem roundedTo_roundPack {F : Format} (hF : F.Proper) {m : Nat} {e : Int} {more : Bool} {X : ℝ} (h : Cuts m e more X)
    (hm : more = true → 2 ^ F.p ≤ m) (rm : BitVec 2) (ufm sign : Bool) :
    RoundedTo F rm ufm (signedReal sign X) (roundPack F rm ufm sign m e more) :=
  (rounding_roundPack h hm hF rm sign).roundedTo hF h.pos ufm

end Sys2Proof.Machine
end

section
/-! Arithmetic on numbers: the sums, products, quotients, roots and conversions of finite operands are exact numbers rounded
once (44_floating_point.md, R552, R565 to R589). -/

namespace Sys2Proof.Machine

open Sys2Proof.Spec

/-! ## Numbers as values -/

/-- A finite value of the format. -/
def IsNumber (F : Format) : FloatVal → Prop
  | .zero _ => True
  | .fin _ m e => m ≠ 0 ∧ m < 2 ^ F.p ∧ F.least ≤ e
  | _ => False

/-- The sign of a value. -/
def valSign : FloatVal → Bool
  | .nan s _ => s
  | .inf s => s
  | .zero s => s
  | .fin s _ _ => s

theorem isNumber_unpack {F : Format} (hF : F.Proper) {x : Nat} (h : Finite F x) : IsNumber F (unpack F x) := by
  obtain ⟨s, M, hM, rfl⟩ := (finite_iff hF).mp h
  by_cases h0 : M = 0
  · rw [h0, Nat.add_zero, unpack_zero hF]
    trivial
  · rw [unpack_number hM h0]
    refine ⟨fun hs => h0 ?_, significand_lt hF M, by omega⟩
    rw [← magValue_eq_zero_iff hF, magValue, hs, Nat.cast_zero, zero_mul]

theorem valSign_unpack {F : Format} (hF : F.Proper) {x : Nat} (h : Finite F x) : valSign (unpack F x) = signOf F x := by
  obtain ⟨s, M, hM, rfl⟩ := (finite_iff hF).mp h
  rw [signOf_pattern hF (hM.trans (infinity_lt F))]
  by_cases h0 : M = 0
  · rw [h0, Nat.add_zero, unpack_zero hF]
    rfl
  · rw [unpack_number hM h0]
    rfl

section Values

variable {F : Format} {a b : FloatVal} {s : Bool} {m : Nat} {e : Int}

theorem IsNumber.ne_nan (h : IsNumber F a) (s : Bool) (f : Nat) : a ≠ .nan s f := by
  rintro rfl
  exact h

theorem valueOf_fin (s : Bool) (m : Nat) (e : Int) : valueOf (.fin s m e) = (if s then -1 else 1) * (m * 2 ^ e) :=
  mul_assoc ..

theorem realValueOf_fin (s : Bool) (m : Nat) (e : Int) : ((valueOf (.fin s m e) : ℚ) : ℝ) = signedReal s (m * 2 ^ e) := by
  rw [valueOf_fin]
  cases s <;> simp [signedReal]

theorem abs_valueOf_fin (s : Bool) (m : Nat) (e : Int) : |valueOf (.fin s m e)| = m * 2 ^ e := by
  have hpos : (0 : ℚ) ≤ m * 2 ^ e := by positivity
  rw [valueOf_fin]
  cases s <;> simp [abs_mul]

theorem valueOf_fin_ne_zero (h : m ≠ 0) : valueOf (.fin s m e) ≠ 0 := by
  rw [valueOf_fin]
  cases s <;> simp [h, zpow_ne_zero]

theorem valueOf_fin_neg_iff (h : m ≠ 0) : valueOf (.fin s m e) < 0 ↔ s = true := by
  have hpos : (0 : ℚ) < m * 2 ^ e := mul_pos (Nat.cast_pos.mpr (Nat.pos_of_ne_zero h)) (by positivity)
  rw [valueOf_fin]
  cases s <;> simp [hpos, hpos.le]

/-- Only the zeros have the value 0. -/
theorem IsNumber.eq_zero_of_value (h : IsNumber F a) (h0 : valueOf a = 0) : a = .zero (valSign a) := by
  cases a with
  | nan | inf => exact h.elim
  | zero s => rfl
  | fin s m e => exact absurd h0 (valueOf_fin_ne_zero h.1)

theorem IsNumber.eq_fin_of_value (h : IsNumber F a) (h0 : valueOf a ≠ 0) :
    ∃ m e, a = .fin (valSign a) m e ∧ m ≠ 0 ∧ m < 2 ^ F.p ∧ F.least ≤ e := by
  cases a with
  | nan | inf => exact h.elim
  | zero s => exact absurd rfl h0
  | fin s m e => exact ⟨m, e, rfl, h⟩

/-- A value that is not 0 is rounded once by `roundPack`. -/
theorem roundedTo_fin (hF : F.Proper) (h : m ≠ 0) (rm : BitVec 2) (ufm s : Bool) (e : Int) :
    RoundedTo F rm ufm ((valueOf (.fin s m e) : ℚ) : ℝ) (roundPack F rm ufm s m e false) := by
  rw [realValueOf_fin]
  exact roundedTo_roundPack hF (cuts_exact h e) nofun rm ufm s

/-- A value that the format holds is delivered as it is, and raises nothing. -/
theorem roundPack_of_fits (hF : F.Proper) (h0 : m ≠ 0) (hm : m < 2 ^ F.p) (he : F.least ≤ e)
    (hlo : (2 : ℚ) ^ (1 - F.bias) ≤ m * 2 ^ e) (hhi : (m : ℚ) * 2 ^ e < 2 ^ (F.bias + 1)) (rm : BitVec 2) (ufm s : Bool) :
    let r := roundPack F rm ufm s m e false
    r.exc = 0 ∧ Finite F r.bits ∧ valueOf (unpack F r.bits) = valueOf (.fin s m e) := by
  have h := rounding_roundPack (cuts_exact h0 e) nofun hF rm s
  have hlo : (2 : ℝ) ^ (1 - F.bias) ≤ m * 2 ^ e := by simpa using (Rat.cast_le (K := ℝ)).mpr hlo
  have hhi : (m : ℝ) * 2 ^ e < 2 ^ (F.bias + 1) := by simpa using (Rat.cast_lt (K := ℝ)).mpr hhi
  have hlog : Nat.log2 m < F.p := (Nat.log2_lt h0).mpr hm
  have hlast : lastPlace F m e ≤ e := by
    rw [lastPlace]
    omega
  have hinexact : isInexact F m e false = false := by simp [isInexact, (kept_of_le hlast).1]
  have htiny : isTiny F m e = false := by
    rw [← Bool.not_eq_true, h.tiny_iff, not_lt]
    exact hlo
  have hX : (m : ℝ) * 2 ^ e = magValue F (lowerMag F m e) := not_not.mp (mt h.inexact_iff.mpr (by simp [hinexact]))
  have hup : goesUp F rm s m e false = false := by
    rw [← Bool.not_eq_true]
    exact fun hup => h.ne_of_up hF hup hX
  have hlt : lowerMag F m e < F.infinity := by
    rw [← (realValue_strictMono hF).lt_iff_lt, ← hX, (realValue_infinity hF).1]
    exact hhi
  have hr : roundPack F rm ufm s m e false = { bits := F.signBit s + lowerMag F m e, exc := 0 } := by
    rw [roundPack_eq, hup, htiny, hinexact, roundedResult, if_neg (by simpa using hlt)]
    simp [excIf]
  intro r
  rw [show r = _ from hr]
  refine ⟨rfl, (finite_pattern_iff hF (hlt.trans (infinity_lt F)) s).mpr hlt, ?_⟩
  have hq : (m : ℚ) * 2 ^ e = magValue F (lowerMag F m e) :=
    Rat.cast_injective (α := ℝ) (by push_cast; exact hX)
  rw [valueOf_number hF hlt, valueOf_fin, hq]

/-! ## Results without rounding -/

theorem zeroRes_eq (hF : F.Proper) (s : Bool) : zeroRes F s = signedResult F s 0 := by
  rw [signedResult_eq hF]
  rfl

theorem infRes_eq (hF : F.Proper) (s : Bool) : infRes F s = signedResult F s (infinityBits F) := by
  rw [signedResult_eq hF]
  rfl

theorem defaultNan_eq (hF : F.Proper) : defaultNan F = invalidResult F := by
  rw [invalidResult, signedResult_eq hF, hF.width_eq, Format.signBit, if_neg Bool.false_ne_true, Nat.zero_add]
  rfl

/-! ## Sums -/

theorem valueOf_negValue (h : IsNumber F a) : valueOf (negValue a) = -valueOf a := by
  cases a with
  | nan | inf => exact h.elim
  | zero s => exact neg_zero.symm
  | fin s m e =>
    rw [negValue, valueOf_fin, valueOf_fin]
    cases s <;> simp

theorem isNumber_negValue (h : IsNumber F a) : IsNumber F (negValue a) := by
  cases a with
  | nan | inf => exact h.elim
  | zero | fin => exact h

theorem valSign_negValue (h : IsNumber F a) : valSign (negValue a) = !valSign a := by
  cases a with
  | nan | inf => exact h.elim
  | zero | fin => rfl

/-- A value in units of a smaller power of two. -/
theorem signedInt_mul_two_pow {g : Int} (h : g ≤ e) (s : Bool) (m : Nat) :
    (signedInt s (m * 2 ^ (e - g).toNat) : ℚ) * 2 ^ g = valueOf (.fin s m e) := by
  have hp : (2 : ℚ) ^ (e - g).toNat * 2 ^ g = 2 ^ e := by
    rw [← zpow_natCast, ← zpow_add₀ two_ne_zero]
    congr 1
    omega
  rw [valueOf_fin, ← hp]
  cases s <;> simp [signedInt] <;> ring

/-- A number of units as a value. -/
theorem valueOf_natAbs (n g : Int) : valueOf (.fin (decide (n < 0)) n.natAbs g) = n * 2 ^ g := by
  rw [valueOf_fin, ← mul_assoc, Nat.cast_natAbs]
  congr 1
  by_cases h : n < 0
  · simp [h, abs_of_neg h]
  · simp [h, abs_of_nonneg (not_lt.mp h)]

/-- R552: a sum is rounded once, and a sum that is 0 has its sign by the rule. -/
theorem sumValues_spec (hF : F.Proper) (ha : IsNumber F a) (hb : IsNumber F b) (rm : BitVec 2) (ufm : Bool) :
    (valueOf a + valueOf b ≠ 0 → RoundedTo F rm ufm ((valueOf a : ℝ) + valueOf b) (sumValues F rm ufm a b)) ∧
    (valueOf a + valueOf b = 0 → sumValues F rm ufm a b = zeroRes F (zeroSumSign rm (valSign a) (valSign b))) := by
  rw [← Rat.cast_add]
  cases a with
  | nan | inf => exact ha.elim
  | zero s =>
    cases b with
    | nan | inf => exact hb.elim
    | zero t => exact ⟨fun h => absurd (add_zero (0 : ℚ)) h, fun _ => rfl⟩
    | fin t n f =>
      rw [show valueOf (.zero s) = 0 from rfl, zero_add]
      exact ⟨fun _ => roundedTo_fin hF hb.1 rm ufm t f, fun h => absurd h (valueOf_fin_ne_zero hb.1)⟩
  | fin s m e =>
    cases b with
    | nan | inf => exact hb.elim
    | zero t =>
      rw [show valueOf (.zero t) = 0 from rfl, add_zero]
      exact ⟨fun _ => roundedTo_fin hF ha.1 rm ufm s e, fun h => absurd h (valueOf_fin_ne_zero ha.1)⟩
    | fin t n f =>
      have hg : (2 : ℚ) ^ min e f ≠ 0 := zpow_ne_zero _ two_ne_zero
      rw [← signedInt_mul_two_pow (min_le_left e f) s m, ← signedInt_mul_two_pow (min_le_right e f) t n, ← add_mul,
        ← Int.cast_add, mul_ne_zero_iff, and_iff_left hg, mul_eq_zero, or_iff_left hg, Int.cast_ne_zero, Int.cast_eq_zero]
      unfold sumValues
      refine ⟨fun h => ?_, fun h => if_pos h⟩
      simp only [if_neg h]
      rw [← valueOf_natAbs]
      exact roundedTo_fin hF (Int.natAbs_ne_zero.mpr h) rm ufm _ _

/-! ## Products and quotients -/

/-- The sign of a product or a quotient. -/
theorem sign_mul (s t : Bool) : (if s then -1 else 1 : ℚ) * (if t then -1 else 1) = if s != t then -1 else 1 := by
  cases s <;> cases t <;> norm_num

theorem valueOf_fin_mul (s t : Bool) (m n : Nat) (e f : Int) :
    valueOf (.fin s m e) * valueOf (.fin t n f) = valueOf (.fin (s != t) (m * n) (e + f)) := by
  rw [valueOf_fin, valueOf_fin, valueOf_fin, ← sign_mul, zpow_add₀ two_ne_zero]
  push_cast
  ring

/-- R552: the product, rounded to the format `G`. -/
theorem mulValues_spec {G : Format} (hG : G.Proper) (ha : IsNumber F a) (hb : IsNumber F b) (rm : BitVec 2) (ufm : Bool) :
    (valueOf a * valueOf b ≠ 0 → RoundedTo G rm ufm ((valueOf a : ℝ) * valueOf b) (mulValues G rm ufm a b)) ∧
    (valueOf a * valueOf b = 0 → mulValues G rm ufm a b = zeroRes G (valSign a != valSign b)) := by
  rw [← Rat.cast_mul]
  cases a with
  | nan | inf => exact ha.elim
  | zero s =>
    cases b with
    | nan | inf => exact hb.elim
    | zero | fin => exact ⟨fun h => absurd (zero_mul _) h, fun _ => rfl⟩
  | fin s m e =>
    cases b with
    | nan | inf => exact hb.elim
    | zero t => exact ⟨fun h => absurd (mul_zero _) h, fun _ => rfl⟩
    | fin t n f =>
      have hmn : m * n ≠ 0 := Nat.mul_ne_zero ha.1 hb.1
      rw [valueOf_fin_mul]
      exact ⟨fun _ => roundedTo_fin hG hmn rm ufm _ _, fun h => absurd h (valueOf_fin_ne_zero hmn)⟩

/-- An integer quotient is the quotient without its fraction, and the remainder says whether there is one. -/
theorem natCast_div_bounds {K : Type} [Field K] [LinearOrder K] [IsStrictOrderedRing K] (A : Nat) {n : Nat} (hn : 0 < n) :
    ((A / n : Nat) : K) ≤ A / n ∧ (A : K) / n < (A / n : Nat) + 1 ∧ (A % n = 0 ↔ (A : K) / n = (A / n : Nat)) := by
  have hpos : (0 : K) < n := Nat.cast_pos.mpr hn
  refine ⟨Nat.cast_div_le, ?_, ?_⟩
  · rw [div_lt_iff₀ hpos]
    have hlt := Nat.lt_mul_div_succ A hn
    rw [Nat.mul_comm] at hlt
    exact_mod_cast hlt
  · rw [div_eq_iff hpos.ne', ← Nat.cast_mul, Nat.cast_inj]
    have hA := Nat.div_add_mod' A n
    omega

theorem cuts_div {A n : Nat} (hn : n ≠ 0) (hA : n ≤ A) (g : Int) :
    Cuts (A / n) g (A % n != 0) ((A : ℝ) / n * 2 ^ g) := by
  have hg : (0 : ℝ) < 2 ^ g := by positivity
  obtain ⟨hle, hlt, hexact⟩ := natCast_div_bounds (K := ℝ) A (Nat.pos_of_ne_zero hn)
  refine ⟨(Nat.div_pos hA (Nat.pos_of_ne_zero hn)).ne', ?_, ?_, ?_⟩
  · gcongr
  · gcongr
  · rw [mul_left_inj' hg.ne', bne_eq_false_iff_eq, hexact]

theorem signedReal_div (s t : Bool) (X Y : ℝ) : signedReal s X / signedReal t Y = signedReal (s != t) (X / Y) := by
  cases s <;> cases t <;> simp [signedReal, neg_div, div_neg]

/-- R552: the quotient of two values that are not 0. -/
theorem divValues_spec (hF : F.Proper) (ha : IsNumber F a) (hb : IsNumber F b) (h : valueOf a * valueOf b ≠ 0)
    (rm : BitVec 2) (ufm : Bool) : RoundedTo F rm ufm ((valueOf a : ℝ) / valueOf b) (divValues F rm ufm a b) := by
  rw [← Rat.cast_div]
  cases a with
  | nan | inf => exact ha.elim
  | zero s => exact absurd (zero_mul _) h
  | fin s m e =>
    cases b with
    | nan | inf => exact hb.elim
    | zero t => exact absurd (mul_zero _) h
    | fin t n f =>
      obtain ⟨hm, -, -⟩ := ha
      obtain ⟨hn, hnp, -⟩ := hb
      have hmn : 2 ^ F.p * n ≤ m * 2 ^ (2 * F.p + 2) :=
        calc 2 ^ F.p * n ≤ 2 ^ F.p * 2 ^ F.p := Nat.mul_le_mul_left _ hnp.le
          _ = 2 ^ (2 * F.p) := by rw [← pow_add, two_mul]
          _ ≤ 2 ^ (2 * F.p + 2) := Nat.pow_le_pow_right (by decide) (Nat.le_add_right ..)
          _ ≤ m * 2 ^ (2 * F.p + 2) := Nat.le_mul_of_pos_left _ (Nat.pos_of_ne_zero hm)
      have hq : ((valueOf (.fin s m e) / valueOf (.fin t n f) : ℚ) : ℝ) =
          signedReal (s != t) (((m * 2 ^ (2 * F.p + 2) : Nat) : ℝ) / n * 2 ^ (e - f - (2 * F.p + 2 : Nat))) := by
        rw [Rat.cast_div, realValueOf_fin, realValueOf_fin, signedReal_div, zpow_sub₀ two_ne_zero, zpow_sub₀ two_ne_zero,
          zpow_natCast]
        congr 1
        push_cast
        field_simp
      have hle : n ≤ m * 2 ^ (2 * F.p + 2) := le_trans (Nat.le_mul_of_pos_left n (by positivity)) hmn
      rw [hq]
      exact roundedTo_roundPack hF (cuts_div hn hle _)
        (fun _ => (Nat.le_div_iff_mul_le (Nat.pos_of_ne_zero hn)).mpr hmn) rm ufm (s != t)

end Values

end Sys2Proof.Machine
end

section
/-! Square roots and conversions of numbers (44_floating_point.md, R578, R582, R585, R588). -/

namespace Sys2Proof.Machine

open Sys2Proof.Spec

/-! ## Square roots -/

/-- The bits of `rootBits` narrow the root down to the integer below it. -/
theorem rootBits_spec {x n r : Nat} (hle : r * r ≤ x) (hlt : x < (r + 2 ^ n) * (r + 2 ^ n)) :
    rootBits x n r * rootBits x n r ≤ x ∧ x < (rootBits x n r + 1) * (rootBits x n r + 1) := by
  induction n generalizing r with
  | zero => exact ⟨hle, hlt⟩
  | succ n ih =>
    rw [rootBits]
    split_ifs with h
    · refine ih h ?_
      rwa [Nat.add_assoc, ← two_mul, ← pow_succ']
    · exact ih hle (not_le.mp h)

/-- The integer root is the leading part of the root. -/
theorem cuts_sqrt {n r : Nat} (h0 : r ≠ 0) (hle : r * r ≤ n) (hlt : n < (r + 1) * (r + 1)) (g : Int) :
    Cuts r g (r * r != n) (√n * 2 ^ g) := by
  have hg : (0 : ℝ) < 2 ^ g := by positivity
  refine ⟨h0, ?_, ?_, ?_⟩
  · gcongr
    exact Real.le_sqrt_of_sq_le (by rw [pow_two]; exact_mod_cast hle)
  · gcongr
    rw [Real.sqrt_lt' (by positivity), pow_two]
    exact_mod_cast hlt
  · rw [mul_left_inj' hg.ne', Real.sqrt_eq_iff_mul_self_eq (by positivity) (by positivity), bne_eq_false_iff_eq,
      eq_comm]
    norm_cast

/-- The operand of the root is scaled so that the root has more bits than the precision. -/
theorem scaled_operand_bounds {p m k : Nat} (hm : m ≠ 0) (hmp : m < 2 ^ p) (hk : 2 * p + 4 ≤ k) (hk' : k ≤ 2 * p + 5) :
    2 ^ p * 2 ^ p ≤ m * 2 ^ k ∧ m * 2 ^ k < (0 + 2 ^ (2 * p + 4)) * (0 + 2 ^ (2 * p + 4)) := by
  constructor
  · calc 2 ^ p * 2 ^ p = 2 ^ (2 * p) := by rw [← pow_add, two_mul]
      _ ≤ 2 ^ k := Nat.pow_le_pow_right (by decide) (by omega)
      _ ≤ m * 2 ^ k := Nat.le_mul_of_pos_left _ (Nat.pos_of_ne_zero hm)
  · calc m * 2 ^ k < 2 ^ p * 2 ^ k := Nat.mul_lt_mul_of_pos_right hmp (by positivity)
      _ = 2 ^ (p + k) := (pow_add ..).symm
      _ ≤ 2 ^ (2 * p + 4 + (2 * p + 4)) := Nat.pow_le_pow_right (by decide) (by omega)
      _ = (0 + 2 ^ (2 * p + 4)) * (0 + 2 ^ (2 * p + 4)) := by rw [pow_add, Nat.zero_add]

/-- The root of a positive number is rounded once. -/
theorem floatSqrt_roundedTo {F : Format} (hF : F.Proper) {m : Nat} {e : Int} (hm : m ≠ 0) (hmp : m < 2 ^ F.p)
    (rm : BitVec 2) (ufm : Bool) {x : Nat} (hx : unpack F x = .fin false m e) :
    RoundedTo F rm ufm (√(m * 2 ^ e)) (floatSqrt F rm ufm x) := by
  obtain ⟨k, hk⟩ : ∃ k, k = 2 * F.p + 4 + (e % 2).toNat := ⟨_, rfl⟩
  obtain ⟨g, hg⟩ : ∃ g, g = (e - k) / 2 := ⟨_, rfl⟩
  obtain ⟨r, hr⟩ : ∃ r, r = rootBits (m * 2 ^ k) (2 * F.p + 4) 0 := ⟨_, rfl⟩
  have heg : e = g + g + k := by omega
  have hroot : √((m : ℝ) * 2 ^ e) = √((m * 2 ^ k : Nat) : ℝ) * 2 ^ g := by
    rw [heg, zpow_add₀ two_ne_zero, zpow_add₀ two_ne_zero, zpow_natCast, mul_left_comm,
      Real.sqrt_mul (by positivity), Real.sqrt_mul_self (by positivity), mul_comm]
    push_cast
    rfl
  have hres : floatSqrt F rm ufm x = roundPack F rm ufm false r g (r * r != m * 2 ^ k) := by
    rw [floatSqrt, hx, hr, hg, hk]
  obtain ⟨hlow, hhigh⟩ := scaled_operand_bounds (k := k) hm hmp (by omega) (by omega)
  obtain ⟨hle, hlt⟩ := hr ▸ rootBits_spec (Nat.zero_le _) hhigh
  have hrp : 2 ^ F.p ≤ r := by
    by_contra! hlt'
    exact (hlow.trans_lt hlt).not_ge (Nat.mul_le_mul hlt' hlt')
  have hr0 : r ≠ 0 := fun h0 => by
    have := Nat.two_pow_pos F.p
    omega
  rw [hres, hroot]
  exact roundedTo_roundPack hF (cuts_sqrt hr0 hle hlt g) (fun _ => hrp) rm ufm false

/-- A number far from both ends of the exponents is rounded with nx at most. -/
theorem exc_le_one_of_roundedTo {F : Format} {rm : BitVec 2} {ufm : Bool} {x : ℝ} {r : FloatRes} (hp : 2 ≤ F.p)
    (h : RoundedTo F rm ufm x r) (hlo : (2 : ℝ) ^ (1 - F.bias) ≤ x) (hhi : x < 2 ^ F.bias) : r.exc.toNat ≤ 1 := by
  have hbits : ∀ e : BitVec 5, e.getLsbD 3 = false → e.getLsbD 4 = false → e.getLsbD 1 = false → e.getLsbD 2 = false →
      e.toNat ≤ 1 := by decide
  have hx : 0 < x := lt_of_lt_of_le (by positivity) hlo
  have hnext : (2 : ℝ) ^ (F.bias + 1) = 2 * 2 ^ F.bias := by rw [zpow_add_one₀ two_ne_zero, mul_comm]
  have hunit : (2 : ℝ) ^ (F.bias + 1 - F.p) ≤ 2 ^ F.bias := zpow_le_zpow_right₀ one_le_two (by omega)
  have hover : ¬ Overflows F rm x := by
    rw [Overflows, hnext, abs_of_pos hx]
    rintro (hge | ⟨-, hge⟩ | ⟨-, hgt⟩ | ⟨-, hlt⟩) <;> linarith
  obtain ⟨-, hof, hnv, hdz, -, huf, -⟩ := h.2 hover
  refine hbits _ hof hnv hdz ?_
  rw [← Bool.not_eq_true, huf, abs_of_pos hx]
  exact fun htiny => htiny.1.not_ge hlo

/-- The root of a number is far from both ends. -/
theorem sqrt_bounds {F : Format} (hp : 2 ≤ F.p) (hb : (F.p : Int) ≤ F.bias) {a : ℝ} (hlo : (2 : ℝ) ^ F.least ≤ a)
    (hhi : a < 2 ^ (F.bias + 1)) : (2 : ℝ) ^ (1 - F.bias) ≤ √a ∧ √a < 2 ^ F.bias := by
  constructor
  · refine Real.le_sqrt_of_sq_le (le_trans ?_ hlo)
    rw [pow_two, ← zpow_add₀ two_ne_zero]
    exact zpow_le_zpow_right₀ one_le_two (by rw [Format.least]; omega)
  · rw [Real.sqrt_lt' (by positivity)]
    refine hhi.trans_le ?_
    rw [pow_two, ← zpow_add₀ two_ne_zero]
    exact zpow_le_zpow_right₀ one_le_two (by omega)

/-! ## Integers -/

/-- R582: an integer is rounded once. -/
theorem floatOfInt_roundedTo {F : Format} (hF : F.Proper) (rm : BitVec 2) (ufm : Bool) {w : Word} (hw : w ≠ 0) :
    RoundedTo F rm ufm (w.toInt : ℝ) (floatOfInt F rm ufm w) := by
  have h0 : w.toInt.natAbs ≠ 0 := Int.natAbs_ne_zero.mpr fun h => hw (BitVec.eq_of_toInt_eq h)
  have hv : ((valueOf (.fin w.msb w.toInt.natAbs 0) : ℚ) : ℝ) = w.toInt := by
    rw [BitVec.msb_eq_toInt, valueOf_natAbs, zpow_zero, mul_one, Rat.cast_intCast]
  rw [floatOfInt, if_neg hw, ← hv]
  exact roundedTo_fin hF h0 rm ufm _ 0

/-- R583: an integer is a double as it is. -/
theorem floatOfInt_double (rm : BitVec 2) (ufm : Bool) (w : Word) :
    (floatOfInt double rm ufm w).exc = 0 ∧ Finite double (floatOfInt double rm ufm w).bits ∧
      valueOf (unpack double (floatOfInt double rm ufm w).bits) = w.toInt := by
  by_cases hw : w = 0
  · subst hw
    exact ⟨rfl, (finite_pattern_iff double_proper (by positivity) false).mpr double_proper.infinity_pos,
      valueOf_number double_proper double_proper.infinity_pos false |>.trans (by simp)⟩
  · have h0 : w.toInt.natAbs ≠ 0 := Int.natAbs_ne_zero.mpr fun h => hw (BitVec.eq_of_toInt_eq h)
    have hlt : w.toInt.natAbs < 2 ^ 32 := by
      have := w.toInt_lt
      have := w.le_toInt
      omega
    have hv : valueOf (.fin w.msb w.toInt.natAbs 0) = w.toInt := by
      rw [BitVec.msb_eq_toInt, valueOf_natAbs, zpow_zero, mul_one]
    have hlo : (2 : ℚ) ^ (1 - double.bias) ≤ w.toInt.natAbs * 2 ^ (0 : Int) := by
      have hone : (1 : ℚ) ≤ w.toInt.natAbs := by exact_mod_cast Nat.pos_of_ne_zero h0
      rw [zpow_zero, mul_one]
      exact (zpow_le_one_of_nonpos₀ one_le_two (by decide)).trans hone
    have hhi : (w.toInt.natAbs : ℚ) * 2 ^ (0 : Int) < 2 ^ (double.bias + 1) := by
      have hcast : (w.toInt.natAbs : ℚ) < 2 ^ 32 := by exact_mod_cast hlt
      rw [zpow_zero, mul_one]
      exact hcast.trans_le ((zpow_natCast 2 32).symm.trans_le (zpow_le_zpow_right₀ one_le_two (by decide)))
    rw [floatOfInt, if_neg hw, ← hv]
    exact roundPack_of_fits double_proper h0 (hlt.trans (by decide)) (by decide) hlo hhi rm ufm w.msb

/-- A power of two as a quotient of two natural numbers. -/
theorem mul_two_pow_eq_div (m : Nat) (e : Int) : (m : ℚ) * 2 ^ e = (m * 2 ^ e.toNat : Nat) / (2 ^ (-e).toNat : Nat) := by
  rw [← Int.toNat_sub_toNat_neg e, zpow_sub₀ two_ne_zero, zpow_natCast, zpow_natCast]
  simp only [Int.toNat_sub_toNat_neg]
  push_cast
  ring

/-- R585: the conversion of a number with magnitude `m * 2 ^ e`, whose integer part is `v` with its sign. -/
theorem truncatedTo_signedInt (s : Bool) {n : Nat} {A : ℚ} {c : Bool} (hle : n ≤ A) (hlt : A < n + 1)
    (hexact : c = false ↔ A = n) : TruncatedTo ((if s then -1 else 1) * A)
      (if signedInt s n > 2147483647 ∨ signedInt s n < -2147483648 then saturated s
        else { bits := (BitVec.ofInt 32 (signedInt s n)).toNat, exc := excIf c excNx }) := by
  have hn : (0 : ℚ) ≤ n := Nat.cast_nonneg n
  have hA := hn.trans hle
  have hcast : ((signedInt s n : Int) : ℚ) = (if s then -1 else 1) * n := by cases s <;> simp [signedInt]
  have habs {B : ℚ} (hB : 0 ≤ B) : |(if s then -1 else 1) * B| = B := by
    cases s <;> simp [abs_of_nonneg hB]
  refine ⟨signedInt s n, ?_, ?_, ?_, fun hlo hhi => ?_, fun hbig => ?_, fun hsmall => ?_⟩
  · rwa [hcast, habs hn, habs hA]
  · rwa [hcast, habs hn, habs hA]
  · rw [hcast]
    cases s <;> simp <;> positivity
  · have hin : ¬ (signedInt s n > 2147483647 ∨ signedInt s n < -2147483648) := by omega
    have hsame : (signedInt s n : ℚ) = (if s then -1 else 1) * A ↔ c = false := by
      rw [hcast, hexact, eq_comm (a := A)]
      cases s <;> simp
    rw [if_neg hin]
    constructor
    · rw [BitVec.ofNat_toNat, BitVec.setWidth_eq, BitVec.toInt_ofInt]
      exact Int.bmod_eq_of_le (by omega) (by omega)
    · simp only [hsame]
      cases c <;> rfl
  · have hs : s = false := by
      cases s
      · rfl
      · simp only [signedInt, if_true] at hbig
        omega
    rw [if_pos (.inl (by omega)), hs]
    exact ⟨rfl, rfl⟩
  · have hs : s = true := by
      cases s
      · simp only [signedInt, Bool.false_eq_true, if_false] at hsmall
        omega
      · rfl
    rw [if_pos (.inr (by omega)), hs]
    exact ⟨rfl, rfl⟩

/-- R585: the conversion of a number to an integer. -/
theorem floatToInt_truncatedTo {F : Format} {x : Nat} (h : IsNumber F (unpack F x)) :
    TruncatedTo (valueOf (unpack F x)) (floatToInt F x) := by
  rw [floatToInt]
  cases hu : unpack F x with
  | nan | inf => rw [hu] at h; exact h.elim
  | zero s => exact ⟨0, by simp [valueOf]⟩
  | fin s m e =>
    obtain ⟨hle, hlt, hexact⟩ := natCast_div_bounds (K := ℚ) (m * 2 ^ e.toNat) (Nat.two_pow_pos (-e).toNat)
    rw [← mul_two_pow_eq_div] at hle hlt hexact
    rw [valueOf_fin]
    exact truncatedTo_signedInt s hle hlt (by rw [bne_eq_false_iff_eq, hexact])

end Sys2Proof.Machine
end

section
/-! The operates on numbers and on infinities (44_floating_point.md, R552, R556, R565 to R589). -/

namespace Sys2Proof.Machine

open Sys2Proof.Spec

/-! ## Numbers -/

section Dyadic

variable {F G : Format} {x y : Nat} (rm : BitVec 2) (ufm : Bool) (hx : ∀ s f, unpack F x ≠ .nan s f)
  (hy : ∀ s f, unpack F y ≠ .nan s f)
include hx hy

theorem floatAdd_of_ne_nan : floatAdd F rm ufm x y = sumValues F rm ufm (unpack F x) (unpack F y) := by
  rw [floatAdd, nanResult_none F F hx hy]
  rfl

theorem floatSub_of_ne_nan : floatSub F rm ufm x y = sumValues F rm ufm (unpack F x) (negValue (unpack F y)) := by
  rw [floatSub, nanResult_none F F hx hy]
  rfl

theorem floatMul_of_ne_nan : floatMul F G rm ufm x y = mulValues G rm ufm (unpack F x) (unpack F y) := by
  rw [floatMul, nanResult_none F G hx hy]
  rfl

theorem floatDiv_of_ne_nan : floatDiv F rm ufm x y = divValues F rm ufm (unpack F x) (unpack F y) := by
  rw [floatDiv, nanResult_none F F hx hy]
  rfl

end Dyadic

theorem ne_nan_of_finite {F : Format} {x : Nat} (hx : Finite F x) (s : Bool) (f : Nat) : unpack F x ≠ .nan s f :=
  (hx.2 s f).2

section Numbers

variable {F G : Format} {x y : Nat} (hF : F.Proper) (rm : BitVec 2) (ufm : Bool) (hx : Finite F x)
include hF hx

/-- A number is less in magnitude than what would come after the largest one. -/
theorem abs_value_lt : |valueOf (unpack F x)| < 2 ^ (F.bias + 1) := by
  obtain ⟨s, M, hM, rfl⟩ := (finite_iff hF).mp hx
  have habs : |(if s then -1 else 1 : ℚ)| = 1 := by cases s <;> simp
  rw [valueOf_number hF hM, abs_mul, habs, one_mul, abs_of_nonneg (magValue_nonneg F M), ← (magValue_infinity hF).1]
  exact magValue_strictMono hF hM

section Pair

variable (hy : Finite F y)
include hy

theorem floatAdd_finite :
    let a := valueOf (unpack F x)
    let b := valueOf (unpack F y)
    (a + b ≠ 0 → RoundedTo F rm ufm ((a : ℝ) + b) (floatAdd F rm ufm x y)) ∧
    (a + b = 0 → floatAdd F rm ufm x y =
      signedResult F (if signOf F x = signOf F y then signOf F x else rm == 3) 0) := by
  rw [floatAdd_of_ne_nan rm ufm (ne_nan_of_finite hx) (ne_nan_of_finite hy), ← zeroRes_eq hF,
    ← valSign_unpack hF hx, ← valSign_unpack hF hy]
  exact sumValues_spec hF (isNumber_unpack hF hx) (isNumber_unpack hF hy) rm ufm

theorem floatSub_finite :
    let a := valueOf (unpack F x)
    let b := valueOf (unpack F y)
    (a - b ≠ 0 → RoundedTo F rm ufm ((a : ℝ) - b) (floatSub F rm ufm x y)) ∧
    (a - b = 0 → floatSub F rm ufm x y =
      signedResult F (if signOf F x = (!signOf F y) then signOf F x else rm == 3) 0) := by
  have hb := isNumber_unpack hF hy
  have h := sumValues_spec hF (isNumber_unpack hF hx) (isNumber_negValue hb) rm ufm
  rw [valueOf_negValue hb, valSign_negValue hb, Rat.cast_neg, ← sub_eq_add_neg, ← sub_eq_add_neg, valSign_unpack hF hx,
    valSign_unpack hF hy, zeroRes_eq hF] at h
  rw [floatSub_of_ne_nan rm ufm (ne_nan_of_finite hx) (ne_nan_of_finite hy)]
  exact h

theorem floatMul_finite (hG : G.Proper) :
    let a := valueOf (unpack F x)
    let b := valueOf (unpack F y)
    (a * b ≠ 0 → RoundedTo G rm ufm ((a : ℝ) * b) (floatMul F G rm ufm x y)) ∧
    (a * b = 0 → floatMul F G rm ufm x y = signedResult G (signOf F x != signOf F y) 0) := by
  rw [floatMul_of_ne_nan rm ufm (ne_nan_of_finite hx) (ne_nan_of_finite hy), ← zeroRes_eq hG,
    ← valSign_unpack hF hx, ← valSign_unpack hF hy]
  exact mulValues_spec hG (isNumber_unpack hF hx) (isNumber_unpack hF hy) rm ufm

theorem floatDiv_finite :
    let a := valueOf (unpack F x)
    let b := valueOf (unpack F y)
    let s := signOf F x != signOf F y
    (a * b ≠ 0 → RoundedTo F rm ufm ((a : ℝ) / b) (floatDiv F rm ufm x y)) ∧
    (a = 0 → b ≠ 0 → floatDiv F rm ufm x y = signedResult F s 0) ∧
    (a ≠ 0 → b = 0 → floatDiv F rm ufm x y = signedResult F s (infinityBits F) 2) ∧
    (a = 0 → b = 0 → floatDiv F rm ufm x y = invalidResult F) := by
  intro a b s
  have ha := isNumber_unpack hF hx
  have hb := isNumber_unpack hF hy
  rw [floatDiv_of_ne_nan rm ufm (ne_nan_of_finite hx) (ne_nan_of_finite hy)]
  refine ⟨fun h => divValues_spec hF ha hb h rm ufm, fun h0 h1 => ?_, fun h0 h1 => ?_, fun h0 h1 => ?_⟩
  · obtain ⟨n, f, hbf, -⟩ := hb.eq_fin_of_value h1
    rw [ha.eq_zero_of_value h0, hbf, valSign_unpack hF hx, valSign_unpack hF hy, ← zeroRes_eq hF]
    rfl
  · obtain ⟨m, e, haf, -⟩ := ha.eq_fin_of_value h0
    rw [haf, hb.eq_zero_of_value h1, valSign_unpack hF hx, valSign_unpack hF hy, signedResult_eq hF]
    rfl
  · rw [ha.eq_zero_of_value h0, hb.eq_zero_of_value h1, ← defaultNan_eq hF]
    rfl

end Pair

/-- R578. -/
theorem floatSqrt_finite (hb : (F.p : Int) ≤ F.bias) :
    let a := valueOf (unpack F x)
    (0 < a → RoundedTo F rm ufm (Real.sqrt a) (floatSqrt F rm ufm x) ∧ (floatSqrt F rm ufm x).exc.toNat ≤ 1) ∧
    (a = 0 → floatSqrt F rm ufm x = { bits := x, exc := 0 }) ∧ (a < 0 → floatSqrt F rm ufm x = invalidResult F) := by
  intro a
  have ha := isNumber_unpack hF hx
  refine ⟨fun hpos => ?_, fun h0 => ?_, fun hneg => ?_⟩
  · obtain ⟨m, e, haf, hm, hmp, he⟩ := ha.eq_fin_of_value hpos.ne'
    have hs : valSign (unpack F x) = false := by
      rw [← Bool.not_eq_true, ← valueOf_fin_neg_iff hm, ← haf]
      exact hpos.not_gt
    rw [hs] at haf
    have hval : (a : ℝ) = m * 2 ^ e := (congrArg (fun v => ((valueOf v : ℚ) : ℝ)) haf).trans (realValueOf_fin ..)
    have hlo : (2 : ℝ) ^ F.least ≤ a := by
      have hone : (1 : ℝ) ≤ m := by exact_mod_cast Nat.pos_of_ne_zero hm
      rw [hval]
      exact (zpow_le_zpow_right₀ one_le_two he).trans (le_mul_of_one_le_left (by positivity) hone)
    have hhi : (a : ℝ) < 2 ^ (F.bias + 1) := by
      simpa using (Rat.cast_lt (K := ℝ)).mpr ((le_abs_self a).trans_lt (abs_value_lt hF hx))
    obtain ⟨hlo', hhi'⟩ := sqrt_bounds hF.p hb hlo hhi
    have hr := floatSqrt_roundedTo hF hm hmp rm ufm haf
    rw [← hval] at hr
    exact ⟨hr, exc_le_one_of_roundedTo hF.p hr hlo' hhi'⟩
  · obtain ⟨s, M, hM, rfl⟩ := (finite_iff hF).mp hx
    have hM0 : M = 0 := by
      have hval : (if s then -1 else 1) * magValue F M = 0 := (valueOf_number hF hM s).symm.trans h0
      rw [← magValue_eq_zero_iff hF]
      cases s <;> simpa using hval
    rw [hM0, Nat.add_zero, floatSqrt, unpack_zero hF]
    rfl
  · obtain ⟨m, e, haf, hm, -⟩ := ha.eq_fin_of_value hneg.ne
    have hs : valSign (unpack F x) = true := by
      rw [← valueOf_fin_neg_iff hm, ← haf]
      exact hneg
    rw [floatSqrt, haf, hs, ← defaultNan_eq hF]

/-- R588, R589. -/
theorem floatConvert_finite {H : Format} (hH : H.Proper) :
    let a := valueOf (unpack F x)
    (a ≠ 0 → RoundedTo H rm ufm a (floatConvert F H rm ufm x)) ∧
    (a = 0 → floatConvert F H rm ufm x = signedResult H (signOf F x) 0) := by
  intro a
  have ha := isNumber_unpack hF hx
  constructor
  · intro h0
    obtain ⟨m, e, haf, hm, -⟩ := ha.eq_fin_of_value h0
    have h := roundedTo_fin hH hm rm ufm (valSign (unpack F x)) e
    rw [← haf] at h
    rw [floatConvert, haf]
    exact h
  · intro h0
    rw [floatConvert, ha.eq_zero_of_value h0, valSign_unpack hF hx, ← zeroRes_eq hH]

end Numbers

/-- R572: the product of two singles is a double as it is. -/
theorem floatMul_single_double {x y : Nat} (rm : BitVec 2) (ufm : Bool) (hx : Finite single x) (hy : Finite single y)
    (h : valueOf (unpack single x) * valueOf (unpack single y) ≠ 0) :
    let r := floatMul single double rm ufm x y
    r.exc = 0 ∧ Finite double r.bits ∧
      valueOf (unpack double r.bits) = valueOf (unpack single x) * valueOf (unpack single y) := by
  have ha := isNumber_unpack single_proper hx
  have hb := isNumber_unpack single_proper hy
  have hax := abs_value_lt single_proper hx
  have hby := abs_value_lt single_proper hy
  rw [floatMul_of_ne_nan rm ufm (ne_nan_of_finite hx) (ne_nan_of_finite hy)]
  obtain ⟨m, e, haf, hm, hmp, he⟩ := ha.eq_fin_of_value (left_ne_zero_of_mul h)
  obtain ⟨n, f, hbf, hn, hnp, hf⟩ := hb.eq_fin_of_value (right_ne_zero_of_mul h)
  rw [haf] at hax ⊢
  rw [hbf] at hby ⊢
  rw [valueOf_fin_mul]
  have hmn : m * n ≠ 0 := Nat.mul_ne_zero hm hn
  have hfit : m * n < 2 ^ double.p :=
    calc m * n < 2 ^ 24 * 2 ^ 24 := Nat.mul_lt_mul'' hmp hnp
      _ < 2 ^ 53 := by decide
  have hleast : double.least ≤ e + f := by
    have hs : single.least = -149 := rfl
    have hd : double.least = -1074 := rfl
    omega
  have hlo : (2 : ℚ) ^ (1 - double.bias) ≤ (m * n : Nat) * 2 ^ (e + f) := by
    have hone : (1 : ℚ) ≤ (m * n : Nat) := by exact_mod_cast Nat.pos_of_ne_zero hmn
    have hexp : 1 - double.bias ≤ e + f := by
      have hs : single.least = -149 := rfl
      have hd : double.bias = 1023 := rfl
      omega
    exact (zpow_le_zpow_right₀ one_le_two hexp).trans (le_mul_of_one_le_left (by positivity) hone)
  have hhi : ((m * n : Nat) : ℚ) * 2 ^ (e + f) < 2 ^ (double.bias + 1) := by
    rw [abs_valueOf_fin] at hax hby
    calc ((m * n : Nat) : ℚ) * 2 ^ (e + f) = (m * 2 ^ e) * (n * 2 ^ f) := by
          rw [zpow_add₀ two_ne_zero]
          push_cast
          ring
      _ < 2 ^ (single.bias + 1) * 2 ^ (single.bias + 1) := by gcongr
      _ = 2 ^ (single.bias + 1 + (single.bias + 1)) := (zpow_add₀ two_ne_zero ..).symm
      _ ≤ 2 ^ (double.bias + 1) := zpow_le_zpow_right₀ one_le_two (by decide)
  exact roundPack_of_fits double_proper hmn hfit hleast hlo hhi rm ufm _

end Sys2Proof.Machine
end

section
/-! The operates on infinities, and the obligations on the arithmetic of the FPU (44_floating_point.md, R552, R556, R583). -/

namespace Sys2Proof.Machine

open Sys2Proof.Spec

/-! ## Infinities as values -/

section Values

variable {F G : Format} {b : FloatVal} (hb : IsNumber F b) (rm : BitVec 2) (ufm s : Bool)
include hb

theorem sumValues_inf_left : sumValues F rm ufm (.inf s) b = infRes F s := by
  cases b with
  | nan | inf => exact hb.elim
  | zero | fin => rfl

theorem sumValues_inf_right : sumValues F rm ufm b (.inf s) = infRes F s := by
  cases b with
  | nan | inf => exact hb.elim
  | zero | fin => rfl

/-- Infinity times 0 is invalid. -/
theorem mulValues_inf_left :
    mulValues G rm ufm (.inf s) b = if valueOf b = 0 then defaultNan G else infRes G (s != valSign b) := by
  cases b with
  | nan | inf => exact hb.elim
  | zero t => exact (if_pos rfl).symm
  | fin t n f => exact (if_neg (valueOf_fin_ne_zero hb.1)).symm

theorem mulValues_inf_right :
    mulValues G rm ufm b (.inf s) = if valueOf b = 0 then defaultNan G else infRes G (valSign b != s) := by
  cases b with
  | nan | inf => exact hb.elim
  | zero t => exact (if_pos rfl).symm
  | fin t n f => exact (if_neg (valueOf_fin_ne_zero hb.1)).symm

theorem divValues_inf_left : divValues F rm ufm (.inf s) b = infRes F (s != valSign b) := by
  cases b with
  | nan | inf => exact hb.elim
  | zero | fin => rfl

theorem divValues_inf_right : divValues F rm ufm b (.inf s) = zeroRes F (valSign b != s) := by
  cases b with
  | nan | inf => exact hb.elim
  | zero | fin => rfl

end Values

/-! ## Infinities as patterns -/

section Patterns

variable {F G : Format} {x y : Nat} (hF : F.Proper) (rm : BitVec 2) (ufm : Bool) (hx : Spec.Infinite F x)
include hF hx

theorem unpack_infinite : unpack F x = .inf (signOf F x) := by
  obtain ⟨s, rfl⟩ := (infinite_iff hF).mp hx
  rw [signOf_pattern hF (infinity_lt F), unpack_infinity]

theorem ne_nan_of_infinite (s : Bool) (f : Nat) : unpack F x ≠ .nan s f := by
  rw [unpack_infinite hF hx]
  exact nofun

/-- R578, R585, R588: the operates on one infinity. -/
theorem monadic_infinite :
    floatSqrt F rm ufm x = (if signOf F x then invalidResult F else signedResult F false (infinityBits F)) ∧
    (∀ H ∈ [single, double], floatConvert F H rm ufm x = signedResult H (signOf F x) (infinityBits H)) ∧
    floatToInt F x = { bits := if signOf F x then 0x80000000 else 0x7FFFFFFF, exc := 16 } := by
  have hu := unpack_infinite hF hx
  refine ⟨?_, fun H hH => ?_, ?_⟩
  · rw [floatSqrt, hu, ← defaultNan_eq hF, ← infRes_eq hF]
    cases signOf F x <;> rfl
  · have hH : H = single ∨ H = double := by simpa using hH
    rw [floatConvert, hu, ← infRes_eq (proper_of_eq hH)]
  · rw [floatToInt, hu]
    rfl

/-- R552, R556: an infinity and a number. -/
theorem dyadic_infinite_finite (hG : G.Proper) (hy : Finite F y) :
    let b := valueOf (unpack F y)
    let sx := signOf F x
    let sy := signOf F y
    let inf (H : Format) (neg : Bool) := signedResult H neg (infinityBits H)
    floatAdd F rm ufm x y = inf F sx ∧ floatSub F rm ufm x y = inf F sx ∧ floatDiv F rm ufm x y = inf F (sx != sy) ∧
    floatMul F G rm ufm x y = (if b = 0 then invalidResult G else inf G (sx != sy)) ∧
    floatAdd F rm ufm y x = inf F sx ∧ floatSub F rm ufm y x = inf F (!sx) ∧
    floatDiv F rm ufm y x = signedResult F (sy != sx) 0 ∧
    floatMul F G rm ufm y x = (if b = 0 then invalidResult G else inf G (sy != sx)) := by
  intro b sx sy inf
  have nx := ne_nan_of_infinite hF hx
  have ny := ne_nan_of_finite hy
  have hb := isNumber_unpack hF hy
  rw [floatAdd_of_ne_nan rm ufm nx ny, floatSub_of_ne_nan rm ufm nx ny, floatDiv_of_ne_nan rm ufm nx ny,
    floatMul_of_ne_nan rm ufm nx ny, floatAdd_of_ne_nan rm ufm ny nx, floatSub_of_ne_nan rm ufm ny nx,
    floatDiv_of_ne_nan rm ufm ny nx, floatMul_of_ne_nan rm ufm ny nx, unpack_infinite hF hx]
  simp only [inf, ← infRes_eq hF, ← infRes_eq hG, ← defaultNan_eq hG, ← zeroRes_eq hF, sy, ← valSign_unpack hF hy]
  exact ⟨sumValues_inf_left hb .., sumValues_inf_left (isNumber_negValue hb) .., divValues_inf_left hb ..,
    mulValues_inf_left hb .., sumValues_inf_right hb .., sumValues_inf_right hb .., divValues_inf_right hb ..,
    mulValues_inf_right hb ..⟩

/-- R552, R556: two infinities. -/
theorem dyadic_infinite_infinite (hG : G.Proper) (hy : Spec.Infinite F y) :
    let sx := signOf F x
    let sy := signOf F y
    let inf (H : Format) (neg : Bool) := signedResult H neg (infinityBits H)
    floatAdd F rm ufm x y = (if sx = sy then inf F sx else invalidResult F) ∧
    floatSub F rm ufm x y = (if sx = sy then invalidResult F else inf F sx) ∧
    floatMul F G rm ufm x y = inf G (sx != sy) ∧ floatDiv F rm ufm x y = invalidResult F := by
  intro sx sy inf
  have nx := ne_nan_of_infinite hF hx
  have ny := ne_nan_of_infinite hF hy
  rw [floatAdd_of_ne_nan rm ufm nx ny, floatSub_of_ne_nan rm ufm nx ny, floatDiv_of_ne_nan rm ufm nx ny,
    floatMul_of_ne_nan rm ufm nx ny, unpack_infinite hF hx, unpack_infinite hF hy]
  simp only [inf, ← infRes_eq hF, ← infRes_eq hG, ← defaultNan_eq hF]
  refine ⟨rfl, ?_, rfl, rfl⟩
  show (if sx = !sy then infRes F sx else defaultNan F) = _
  cases sx <;> cases sy <;> rfl

end Patterns

/-! ## The obligations -/

/-- Settles O53: each operation takes its numbers to `roundPack` with an exact magnitude or with its leading bits. -/
theorem floatRounding : Obligations.FloatRounding := by
  intro F G rm ufm x y hFeq hGeq a b sx sy zeroSum inf
  have hF := proper_of_eq hFeq
  have hG : G.Proper := by
    obtain rfl | ⟨-, rfl⟩ := hGeq
    · exact hF
    · exact double_proper
  have hb : (F.p : Int) ≤ F.bias := by obtain rfl | rfl := hFeq <;> decide
  refine ⟨fun hx hy => ?_, fun hx => ?_, fun hx => ?_, zeroRes_eq hF false, fun w => floatOfInt_roundedTo hF rm ufm⟩
  · obtain ⟨hadd, hadd0⟩ := floatAdd_finite hF rm ufm hx hy
    obtain ⟨hsub, hsub0⟩ := floatSub_finite hF rm ufm hx hy
    obtain ⟨hmul, -⟩ := floatMul_finite hF rm ufm hx hy hF
    obtain ⟨-, hmul0⟩ := floatMul_finite hF rm ufm hx hy hG
    obtain ⟨hdiv, hzero, hdz, hinvalid⟩ := floatDiv_finite hF rm ufm hx hy
    refine ⟨hadd, hadd0, hsub, hsub0, fun h => ⟨hmul h, hdiv h⟩, hmul0, hzero, hdz, hinvalid, ?_⟩
    rintro rfl h
    exact floatMul_single_double rm ufm hx hy h
  · obtain ⟨hpos, h0, hneg⟩ := floatSqrt_finite hF rm ufm hx hb
    exact ⟨hpos, h0, hneg, fun H hH => floatConvert_finite hF rm ufm hx (proper_of_eq (by simpa using hH)),
      floatToInt_truncatedTo (isNumber_unpack hF hx)⟩
  · obtain ⟨hsqrt, hconvert, hint⟩ := monadic_infinite hF rm ufm hx
    exact ⟨hsqrt, hconvert, hint, dyadic_infinite_finite hF rm ufm hx hG, dyadic_infinite_infinite hF rm ufm hx hG⟩

/-- Settles O55: a move raises nothing, nor does FiTOd, since a double holds every integer. -/
theorem floatMovesAndFitod : Obligations.FloatMovesAndFitod := by
  intro rd rs2 s hr
  simp only [List.forall_mem_cons]
  refine ⟨⟨completes_move hr rfl, completes_move hr rfl, completes_move hr rfl, List.forall_mem_nil _⟩, ?_⟩
  obtain ⟨hexc, hfin, hval⟩ := floatOfInt_double s.fsr.rd (underflowTraps s) (readF rs2 s)
  have hdouble := (completes_double hr (i := .fitod rd rs2) rfl).2 (by rw [hexc]; exact BitVec.zero_and)
  refine hdouble.imp fun t ⟨hadv, hfsr, hread, hf⟩ => ⟨hadv, ?_, ?_, hf⟩
  · have hlt : (floatOfInt double s.fsr.rd (underflowTraps s) (readF rs2 s)).bits < 2 ^ 64 := hfin.1
    rw [hread, BitVec.toNat_ofNat, Nat.mod_eq_of_lt hlt, hval]
  · rw [hfsr, hexc, maskedFsr_zero]

end Sys2Proof.Machine
end

section
/-! Loads and stores in the address spaces of the MMU and of the caches: how one that its space accepts completes, and the
frame it keeps (45_mmu_asi_operations.md, R641 to R643). -/

namespace Sys2Proof.Machine

open Sys2Proof.Spec

/-! ## Frames -/

theorem controlled_of_loadAsi {asi : Asi} {w : Width} {a : Word} {d : BitVec 64} {s u : State}
    (h : loadAsi asi w a s = .ok d u) : Controlled s u := by
  have c := controlled_loadAsi asi w a s
  rwa [h] at c

theorem controlled_of_storeAsi {asi : Asi} {w : Width} {a : Word} {d : BitVec 64} {s u : State}
    (h : storeAsi asi w a d s = .ok () u) : Controlled s u := by
  have c := controlled_storeAsi asi w a d s
  rwa [h] at c

/-- Such a space lies within every frame that lists what has changed of the MMU, the caches and the monitor. -/
theorem Controlled.frame {w : Writes} {s u : State} (h : Controlled s u) (hm : w.mmu = false → u.mmu = s.mmu)
    (hd : w.dtags = false → u.dtags = s.dtags ∧ u.icacheCleared = s.icacheCleared) (hn : w.monitor = false → u.mon = s.mon) :
    Frame w s u := by
  have f := Frame.refl w s
  rw [h.only]
  exact { f with mmu := hm, dtags := hd, monitor := hn }

theorem Controlled.npc {s u : State} (h : Controlled s u) : u.npc = s.npc := by rw [h.only]

theorem Controlled.psr {s u : State} (h : Controlled s u) : u.psr = s.psr := by rw [h.only]

/-! ## Completion -/

/-- A store that its space accepts leaves what the space makes of the state. -/
theorem completes_storeAsi {i : Instr} {asi : Asi} {w : Width} {a : Word} {d : BitVec 64} {s u : State} {f : Writes}
    (hx : exec i s = finish s (andThen (storeAsi asi w a d s) fun _ t => .ok () (advance t)))
    (hs : storeAsi asi w a d s = .ok () u) (hf : Frame f s u) :
    Completes i s fun t =>
      Advanced s t ∧ Frame f s t ∧ t.mmu = u.mmu ∧ t.dtags = u.dtags ∧ t.icacheCleared = u.icacheCleared := by
  have hn := (controlled_of_storeAsi hs).npc
  exact ⟨advance u, by rw [hx, hs, andThen_ok, finish_ok], ⟨by simp [hn], by simp [hn]⟩, hf.advance, rfl, rfl, rfl⟩

section Words

variable {rd rs1 rs2 : Reg} {asi : Asi} {s : State} (h : SpecialAccess .word rs1 rs2 asi s)
include h

theorem sta_completes {u : State} {f : Writes}
    (hs : storeAsi asi .word (altAddress rs1 rs2 s) ((readReg rd s).setWidth 64) s = .ok () u) (hf : Frame f s u) :
    Completes (.sta rd rs1 false asi rs2) s fun t =>
      Advanced s t ∧ Frame f s t ∧ t.mmu = u.mmu ∧ t.dtags = u.dtags ∧ t.icacheCleared = u.icacheCleared :=
  completes_storeAsi (exec_sta h) hs hf

/-- A load that its space accepts leaves the word in `rd`. -/
theorem lda_completes {v : Word} {u : State} {f : Writes}
    (hl : loadAsi asi .word (altAddress rs1 rs2 s) s = .ok (v.setWidth 64) u) (hf : Frame f s u)
    (hr : slot s.psr.cwp rd ∈ f.slots) :
    Completes (.lda rd rs1 false asi rs2) s fun t => Advanced s t ∧ Frame f s t ∧ Holds rd v t ∧ t.mmu = u.mmu := by
  have c := controlled_of_loadAsi hl
  refine ⟨advance (writeReg rd v u), ?_, ⟨by simp [c.npc], by simp [c.npc]⟩,
    (hf.writeReg (by rwa [c.psr]) v).advance, holds_advance_writeReg .., by simp⟩
  rw [exec_lda h, hl, andThen_ok, finish_ok, lowWord_setWidth]

theorem lda_refused {r : Refusal} (hr : loadAsi asi .word (altAddress rs1 rs2 s) s = .refused r) :
    exec (.lda rd rs1 false asi rs2) s = .refused r := by
  rw [exec_lda h, hr]; rfl

theorem lda_traps {tt : TrapType} (ht : loadAsi asi .word (altAddress rs1 rs2 s) s = .trap tt s) :
    Traps (.lda rd rs1 false asi rs2) tt s := by
  rw [Traps, exec_lda h, ht, andThen_trap, finish_trap, takeTrapWith_self]

theorem sta_traps {tt : TrapType}
    (ht : storeAsi asi .word (altAddress rs1 rs2 s) ((readReg rd s).setWidth 64) s = .trap tt s) :
    Traps (.sta rd rs1 false asi rs2) tt s := by
  rw [Traps, exec_sta h, ht, andThen_trap, finish_trap, takeTrapWith_self]

end Words

end Sys2Proof.Machine
end

section
/-! Flush and probe in ASI 0x03 (45_mmu_asi_operations.md, R646 to R656; D6, D7, D41). -/

namespace Sys2Proof.Machine

open Sys2Proof.Spec

/-! ## Flush (R647, R648, D6) -/

/-- R647: the entries that a flush of type `type` at address `a` names. -/
def FlushNames (type : Nat) (a ctx : Word) (e : TlbEntry) : Prop :=
  (type = 0 ∧ e.level = 3 ∧ e.vtag = a.extractLsb' 12 20 ∧ (e.ctx = ctx ∨ 6 ≤ e.acc.toNat)) ∨
  (type = 1 ∧ 2 ≤ e.level.toNat ∧ e.vtag.extractLsb' 6 14 = a.extractLsb' 18 14 ∧ (e.ctx = ctx ∨ 6 ≤ e.acc.toNat)) ∨
  (type = 2 ∧ 1 ≤ e.level.toNat ∧ e.vtag.extractLsb' 12 8 = a.extractLsb' 24 8 ∧ (e.ctx = ctx ∨ 6 ≤ e.acc.toNat)) ∨
  (type = 3 ∧ e.ctx = ctx ∧ e.acc.toNat ≤ 5) ∨ type = 4

theorem flushes_iff (t : BitVec 3) (a ctx : Word) (e : TlbEntry) :
    flushes t a ctx e = true ↔ FlushNames t.toNat a ctx e := by
  have ht := t.isLt
  unfold flushes FlushNames
  generalize t.toNat = n at ht ⊢
  interval_cases n <;> simp [and_assoc]

/-- A flush clears V of the entries it names and leaves the others. -/
theorem flushEntry_cases (t : BitVec 3) (a ctx : Word) (e : TlbEntry) :
    (FlushNames t.toNat a ctx e → flushEntry t a ctx e = { e with v := false }) ∧
      (¬ FlushNames t.toNat a ctx e → flushEntry t a ctx e = e) := by
  rw [← flushes_iff]
  exact ⟨fun h => if_pos h, fun h => if_neg h⟩

theorem flushEntry_of_five_le {t : BitVec 3} (h : 5 ≤ t.toNat) (a ctx : Word) (e : TlbEntry) :
    flushEntry t a ctx e = e := by
  refine (flushEntry_cases t a ctx e).2 fun hn => ?_
  unfold FlushNames at hn
  omega

theorem mapVec_eq_self {α : Type} {n : Nat} {f : α → α} (h : ∀ x, f x = x) (v : Vector α n) : mapVec f v = v := by
  ext i hi
  simp [mapVec, h]

/-- What a flush leaves of the MMU beside the pointer caches. -/
theorem flushMmu_mmu (a : Word) (s : State) : (flushMmu a s).mmu =
    { s.mmu with
      itlb := mapVec (flushEntry (a.extractLsb' 8 3) a s.mmu.ctx) s.mmu.itlb
      dtlb := mapVec (flushEntry (a.extractLsb' 8 3) a s.mmu.ctx) s.mmu.dtlb
      ptp0 := (flushMmu a s).mmu.ptp0, iptp2 := (flushMmu a s).mmu.iptp2, dptp2 := (flushMmu a s).mmu.dptp2 } := by
  unfold flushMmu
  dsimp only
  split_ifs <;> rfl

/-- All five cached level-2 pointers become invalid. -/
theorem dropPtp2_valid (m : Mmu) : (dropPtp2 m).iptp2.valid = 0 ∧ ∀ k : Fin 4, (dropPtp2 m).dptp2[k].valid = 0 :=
  ⟨rfl, fun k => congrArg Ptp2.valid (mapVec_getElem _ m.dptp2 k)⟩

theorem frame_flushMmu (a : Word) (s : State) : Frame { mmu := true } s (flushMmu a s) := (Frame.refl _ s).setMmu rfl _

/-- The pointers in the caches after a flush, by its type (D6). -/
theorem flushMmu_pointers (a : Word) (s : State) :
    let type := (a.extractLsb' 8 3).toNat
    (1 ≤ type → type ≤ 4 →
      (flushMmu a s).mmu.iptp2.valid = 0 ∧ ∀ k : Fin 4, (flushMmu a s).mmu.dptp2[k].valid = 0) ∧
    (3 ≤ type → type ≤ 4 → (flushMmu a s).mmu.ptp0.valid = 0) ∧
    (type ≤ 2 → (flushMmu a s).mmu.ptp0 = s.mmu.ptp0) ∧
    (type = 0 ∨ 5 ≤ type → (flushMmu a s).mmu.iptp2 = s.mmu.iptp2 ∧ (flushMmu a s).mmu.dptp2 = s.mmu.dptp2) ∧
    (5 ≤ type → (flushMmu a s).mmu.ptp0 = s.mmu.ptp0) := by
  have hlow : a.extractLsb' 8 3 = 1 ∨ a.extractLsb' 8 3 = 2 ↔
      (a.extractLsb' 8 3).toNat = 1 ∨ (a.extractLsb' 8 3).toNat = 2 := by
    rw [← BitVec.toNat_inj, ← BitVec.toNat_inj]; rfl
  have hhigh : a.extractLsb' 8 3 = 3 ∨ a.extractLsb' 8 3 = 4 ↔
      (a.extractLsb' 8 3).toNat = 3 ∨ (a.extractLsb' 8 3).toNat = 4 := by
    rw [← BitVec.toNat_inj, ← BitVec.toNat_inj]; rfl
  intro type
  unfold flushMmu
  simp only [hlow, hhigh]
  split_ifs with h1 h2
  · refine ⟨fun _ _ => dropPtp2_valid _, ?_, fun _ => rfl, ?_, ?_⟩ <;> omega
  · refine ⟨fun _ _ => dropPtp2_valid _, fun _ _ => rfl, ?_, ?_, ?_⟩ <;> omega
  · refine ⟨?_, ?_, fun _ => rfl, fun _ => ⟨rfl, rfl⟩, fun _ => rfl⟩ <;> omega

theorem flushMmu_of_five_le {a : Word} (h : 5 ≤ (a.extractLsb' 8 3).toNat) (s : State) : (flushMmu a s).mmu = s.mmu := by
  obtain ⟨-, -, -, hp, h0⟩ := flushMmu_pointers a s
  obtain ⟨hi, hd⟩ := hp (.inr h)
  rw [flushMmu_mmu, hi, hd, h0 h, mapVec_eq_self (flushEntry_of_five_le h a _), mapVec_eq_self (flushEntry_of_five_le h a _)]

/-! ## The walk of a probe (R654) -/

theorem descend_eq_cons (m : List Host.Cell) (va : Word) (f : Fetched) (levels : List (BitVec 2)) :
    ∃ rest, descend m va f levels = f :: rest := by
  cases levels with
  | nil => exact ⟨[], rfl⟩
  | cons n levels =>
    unfold descend
    dsimp only
    split_ifs
    · exact ⟨_, rfl⟩
    · exact ⟨[], rfl⟩

/-- A walk goes down from a pointer and ends at any other entry. -/
theorem walkFrom_last_cons (m : List Host.Cell) (va : Word) (cached : Bool) (f : Fetched) (n : BitVec 2)
    (levels : List (BitVec 2)) : (walkFrom m va cached f (n :: levels)).last =
    if isPtp f.entry then
      (walkFrom m va cached
        { level := n, addr := entryAddr n f.entry va, entry := memWord m (entryAddr n f.entry va) } levels).last
    else f := by
  simp only [walkFrom, descend]
  split_ifs
  · obtain ⟨rest, hd⟩ := descend_eq_cons m va
      { level := n, addr := entryAddr n f.entry va, entry := memWord m (entryAddr n f.entry va) } levels
    rw [hd, List.getLastD_cons, List.getLastD_cons, List.getLastD_cons]
  · rfl

/-- The entry of level `j` in the tables that the context table leads to. -/
def tableEntry (va : Word) (s : State) (j : Nat) : Word := below s va 0 (memWord s.mem (rootAddr s)) j

/-- A walk that may go down to level `k` ends at level `j`: at level `k`, or above it at the first entry that is no pointer. -/
structure ProbeEnds (va : Word) (s : State) (k j : Nat) : Prop where
  le : j ≤ k
  pointers : ∀ i < j, Pointer (tableEntry va s i)
  last : j < k → ¬ Pointer (tableEntry va s j)

theorem exists_probeEnds (va : Word) (s : State) (k : Nat) : ∃ j, ProbeEnds va s k j := by
  by_cases h : ∃ j, j < k ∧ ¬ Pointer (tableEntry va s j)
  · classical
    obtain ⟨hlt, hn⟩ := Nat.find_spec h
    refine ⟨Nat.find h, hlt.le, fun i hi => ?_, fun _ => hn⟩
    by_contra hp
    exact Nat.find_min h hi ⟨hi.trans hlt, hp⟩
  · refine ⟨k, le_rfl, fun i hi => ?_, fun hlt => absurd hlt (lt_irrefl k)⟩
    by_contra hp
    exact h ⟨i, hi, hp⟩

theorem rootEntry_level (s : State) : (rootEntry s).level = BitVec.ofNat 2 0 := rfl

theorem fetchedBelow_rootEntry (va : Word) (s : State) (i : Nat) :
    (fetchedBelow s va 0 (rootEntry s) i).entry = tableEntry va s i := by
  rw [fetchedBelow_entry, rootEntry_eq]
  rfl

/-- The walk of a probe ends where its last entry stands. -/
theorem probeWalk_last {va : Word} {s : State} {k j : Nat} (hk : k ≤ 3) (h : ProbeEnds va s k j) :
    (probeWalk k va s).last = fetchedBelow s va 0 (rootEntry s) j := by
  obtain ⟨hj, hptr, hend⟩ := h
  have down (i : Nat) (hi : i ≤ j) :
      (walkFrom s.mem va false (fetchedBelow s va 0 (rootEntry s) i) ((levelsBelow i).take (k - i))).last =
        fetchedBelow s va 0 (rootEntry s) j := by
    induction hi using Nat.decreasingInduction with
    | self =>
      by_cases hlt : j < k
      · rw [levelsBelow_of_lt (by omega), show k - j = (k - (j + 1)) + 1 by omega, List.take_succ_cons, walkFrom_last_cons,
          fetchedBelow_rootEntry, isPtp_eq_false (hend hlt)]
        rfl
      · rw [show k - j = 0 by omega]
        rfl
    | of_succ i hi ih =>
      rw [levelsBelow_of_lt (by omega), show k - i = (k - (i + 1)) + 1 by omega, List.take_succ_cons, walkFrom_last_cons,
        fetchedBelow_rootEntry, (isPtp_iff _).mpr (hptr i hi), if_pos rfl, ← ih, entryAddr_eq_tableAddr (by omega)]
      have hstep : fetchedBelow s va 0 (rootEntry s) (i + 1) =
          { level := BitVec.ofNat 2 (i + 1), addr := tableAddr (i + 1) (tableEntry va s i) va,
            entry := memWord s.mem (tableAddr (i + 1) (tableEntry va s i) va) } := by
        simp only [fetchedBelow, belowAddr, below, rootEntry_eq, tableEntry, Nat.zero_add]
      rw [hstep]
  exact down 0 (Nat.zero_le j)

/-! ## The value of a probe (R654) -/

/-- The entry of level `k` is one that a probe of that level returns: a PTE, or above level 3 a pointer. -/
def Probed (k : Nat) (e : Word) : Prop := isPte e = true ∨ (isPtp e = true ∧ k ≠ 3)

theorem probed_iff_of_lt {k : Nat} (h : k < 3) (e : Word) : Probed k e ↔ e.extractLsb' 0 2 ≠ 0 := by
  have types : ∀ x : BitVec 2, ((x == 2 || x == 3) = true ∨ (x == 1) = true) ↔ x ≠ 0 := by decide
  rw [Probed, and_iff_left h.ne]
  exact types (entryType e)

theorem probed_three_iff (e : Word) : Probed 3 e ↔ e.getLsbD 1 = true := by
  simp [Probed, isPte_eq_bit]

/-- A probe of type 3, 2, 1 or 0 returns the entry of level 0, 1, 2 or 3 if pointers lead to it. -/
theorem probeValue_of_level {t : BitVec 3} {k : Nat} (hk : t.toNat + k = 3) (va : Word) (s : State) :
    ((∀ i < k, Pointer (tableEntry va s i)) ∧ Probed k (tableEntry va s k) → probeValue t va s = tableEntry va s k) ∧
      (¬ ((∀ i < k, Pointer (tableEntry va s i)) ∧ Probed k (tableEntry va s k)) → probeValue t va s = 0) := by
  obtain ⟨j, h⟩ := exists_probeEnds va s k
  have hj := h.le
  have ht : t ≠ 4 := fun e => by
    have : t.toNat = 4 := congrArg BitVec.toNat e
    omega
  have hlevel : (fetchedBelow s va 0 (rootEntry s) j).level.toNat = j := by
    rw [fetchedBelow_level s va 0 (rootEntry s) j (rootEntry_level s), toNat_level (by omega), Nat.zero_add]
  have hreach : j = k ↔ ∀ i < k, Pointer (tableEntry va s i) := by
    refine ⟨fun e => e ▸ h.pointers, fun hall => ?_⟩
    by_contra hne
    exact h.last (by omega) (hall j (by omega))
  have hvalue : probeValue t va s = if j = k ∧
      (isPte (tableEntry va s j) = true ∨ (isPtp (tableEntry va s j) = true ∧ k ≠ 3)) then tableEntry va s j else 0 := by
    rw [probeValue, if_neg ht, show 3 - t.toNat = k by omega]
    simp only [probeWalk_last (show k ≤ 3 by omega) h, hlevel, fetchedBelow_rootEntry]
  rw [hvalue, ← hreach]
  constructor
  · rintro ⟨rfl, hp⟩
    exact if_pos ⟨rfl, hp⟩
  · intro hn
    refine if_neg ?_
    rintro ⟨rfl, hp⟩
    exact hn ⟨rfl, hp⟩

/-- A probe of type 4 returns the entry at which the walk ends, if that is a PTE. -/
theorem probeValue_four {va : Word} {s : State} {j : Nat} (h : ProbeEnds va s 3 j) :
    probeValue 4 va s = if (tableEntry va s j).getLsbD 1 then tableEntry va s j else 0 := by
  simp only [probeValue, if_true, probeWalk_last le_rfl h, fetchedBelow_rootEntry, isPte_eq_bit]

/-! ## What a probe of type 4 may load (R655, D7, log 25) -/

/-- Where an entry matches, a probe fills nothing. -/
theorem probeFill_of_match {va : Word} {s : State} (h : ∃ j : Fin 64, tlbMatches s.mmu.ctx va s.mmu.dtlb[j] = true) :
    probeFill va s = s := by
  obtain ⟨j, hj⟩ := h
  have hany : s.mmu.dtlb.toList.any (tlbMatches s.mmu.ctx va) = true :=
    List.any_eq_true.mpr ⟨s.mmu.dtlb[j], Vector.mem_toList_iff.mpr (Vector.getElem_mem _), hj⟩
  simp [probeFill, hany]

/-- Where the walk finds no PTE, a probe fills nothing. -/
theorem probeFill_of_value_zero {va : Word} {s : State} (h : probeValue 4 va s = 0) : probeFill va s = s := by
  obtain ⟨j, hj⟩ := exists_probeEnds va s 3
  have hbit : (tableEntry va s j).getLsbD 1 = false := by
    rw [probeValue_four hj] at h
    by_contra hb
    rw [Bool.not_eq_false] at hb
    rw [if_pos hb] at h
    rw [h] at hb
    exact absurd hb (by decide)
  have hpte : isPte (probeWalk 3 va s).last.entry = false := by
    rw [probeWalk_last le_rfl hj, fetchedBelow_rootEntry, isPte_eq_bit, hbit]
  simp [probeFill, hpte]

/-- What the side of the data leaves of the MMU. -/
theorem mmu_of_dataSide {s u : State} (t : Translated s u) (o : OneSide true s u) :
    u.mmu = { s.mmu with ptp0 := u.mmu.ptp0, dptp2 := u.mmu.dptp2, dtlb := u.mmu.dtlb } := by
  obtain ⟨hi, hp⟩ := o.instr rfl
  dsimp only
  rw [← t.cntl, ← t.ctp, ← t.ctx, ← o.fsr, ← o.far, ← hi, ← hp]

/-- A probe that fills works on the side of the data, as the load that misses does. -/
theorem dataSide_probeFill (va : Word) (s : State) : Translated s (probeFill va s) ∧ OneSide true s (probeFill va s) := by
  have tc := (translated_drawn s).trans (translated_cachePointers true va (walk true va s) (drawn s))
  have oc := (oneSide_cachePointers true va (walk true va s) (drawn s)).1
  have oc : OneSide true s (cachePointers true va (walk true va s) (drawn s)) := ⟨oc.instr, oc.data, oc.fsr, oc.far⟩
  unfold probeFill
  dsimp only
  split_ifs
  · cases hf : fillTlb true va (probeWalk 3 va s).last.level (probeWalk 3 va s).last.entry
        (cachePointers true va (walk true va s) (drawn s)) with
    | none => exact ⟨.refl s, .refl true s⟩
    | some u => exact ⟨tc.trans (translated_fillTlb hf), oc.trans (oneSide_fillTlb hf).1⟩
  · exact ⟨.refl s, .refl true s⟩

/-- A probe of type 0 to 4 returns its value; one of type 4 may work on the side of the data as the load that misses does. -/
theorem probeMmu_eq_ok {a : Word} (s : State) (h : (a.extractLsb' 8 3).toNat ≤ 4) : ∃ u,
    probeMmu a s = .ok (probeValue (a.extractLsb' 8 3) a s) u ∧ Translated s u ∧ OneSide true s u ∧
      ((a.extractLsb' 8 3).toNat ≠ 4 → u = s) ∧
      ((∃ j : Fin 64, tlbMatches s.mmu.ctx a s.mmu.dtlb[j] = true) → u = s) ∧
      (probeValue (a.extractLsb' 8 3) a s = 0 → u = s) := by
  have hok : probeMmu a s = .ok (probeValue (a.extractLsb' 8 3) a s) (if a.extractLsb' 8 3 = 4 then probeFill a s else s) :=
    if_neg (by omega)
  refine ⟨_, hok, ?_⟩
  by_cases h4 : a.extractLsb' 8 3 = 4
  · rw [if_pos h4, h4]
    obtain ⟨t, o⟩ := dataSide_probeFill a s
    exact ⟨t, o, fun hn => absurd rfl hn, probeFill_of_match, probeFill_of_value_zero⟩
  · rw [if_neg h4]
    exact ⟨.refl s, .refl true s, fun _ => rfl, fun _ => rfl, fun _ => rfl⟩

/-! ## The obligation -/

/-- What holds after a probe that returns `v`. -/
def ProbeReturns (rd rs1 rs2 : Reg) (s : State) (v : Word) : Prop :=
  let a := readReg rs1 s + readReg rs2 s
  Completes (.lda rd rs1 false 0x03 rs2) s fun t => Advanced s t ∧ Holds rd v t ∧
    Frame { slots := [slot s.psr.cwp rd], mmu := decide ((a.extractLsb' 8 3).toNat = 4) } s t ∧
    t.mmu = { s.mmu with ptp0 := t.mmu.ptp0, dptp2 := t.mmu.dptp2, dtlb := t.mmu.dtlb } ∧
    ((∃ j : Fin 64, tlbMatches s.mmu.ctx a s.mmu.dtlb[j] = true) → t.mmu = s.mmu) ∧ (v = 0 → t.mmu = s.mmu)

section Probes

variable (rd : Reg) {rs1 rs2 : Reg} {s : State} (h : SpecialAccess .word rs1 rs2 0x03 s)
include h

theorem lda_probe (ht : ((altAddress rs1 rs2 s).extractLsb' 8 3).toNat ≤ 4) :
    ProbeReturns rd rs1 rs2 s (probeValue ((altAddress rs1 rs2 s).extractLsb' 8 3) (altAddress rs1 rs2 s) s) := by
  obtain ⟨u, hu, t, o, hother, hmatch, hzero⟩ := probeMmu_eq_ok s ht
  have hl : loadAsi 0x03 .word (altAddress rs1 rs2 s) s = wordRes (probeMmu (altAddress rs1 rs2 s) s) := rfl
  rw [hu] at hl
  have hf : Frame { slots := [slot s.psr.cwp rd], mmu := decide (((altAddress rs1 rs2 s).extractLsb' 8 3).toNat = 4) } s u :=
    (controlled_of_loadAsi hl).frame (fun e => by rw [hother (of_decide_eq_false e)])
      (fun _ => by rw [t.only]; exact ⟨rfl, rfl⟩) fun _ => t.mon
  obtain ⟨x, he, hadv, hfx, hv, hm⟩ := lda_completes (rd := rd) h hl hf (by simp)
  refine ⟨x, he, hadv, hv, hfx, ?_, fun e => ?_, fun e => ?_⟩
  · rw [hm]
    exact mmu_of_dataSide t o
  · rw [hm, hmatch e]
  · rw [hm, hzero e]

/-- A probe of one level: the entry if pointers lead to it and it is one to return, else 0. -/
theorem lda_probe_level {k : Nat} (hk : ((altAddress rs1 rs2 s).extractLsb' 8 3).toNat + k = 3) {above stands : Prop}
    (ha : above ↔ ∀ i < k, Pointer (tableEntry (altAddress rs1 rs2 s) s i))
    (hs : Probed k (tableEntry (altAddress rs1 rs2 s) s k) ↔ stands) :
    (above → stands → ProbeReturns rd rs1 rs2 s (tableEntry (altAddress rs1 rs2 s) s k)) ∧
      (¬ (above ∧ stands) → ProbeReturns rd rs1 rs2 s 0) := by
  have hr := lda_probe rd h (by omega)
  obtain ⟨hfound, hnone⟩ := probeValue_of_level hk (altAddress rs1 rs2 s) s
  rw [← ha, hs] at hfound hnone
  exact ⟨fun p q => by rwa [hfound ⟨p, q⟩] at hr, fun n => by rwa [hnone n] at hr⟩

/-- A probe of the whole walk: the PTE at its end, else 0. -/
theorem lda_probe_walk (h4 : ((altAddress rs1 rs2 s).extractLsb' 8 3).toNat = 4) {j : Nat}
    (hj : ProbeEnds (altAddress rs1 rs2 s) s 3 j) :
    ((tableEntry (altAddress rs1 rs2 s) s j).getLsbD 1 = true →
      ProbeReturns rd rs1 rs2 s (tableEntry (altAddress rs1 rs2 s) s j)) ∧
    ((tableEntry (altAddress rs1 rs2 s) s j).getLsbD 1 = false → ProbeReturns rd rs1 rs2 s 0) := by
  have hr := lda_probe rd h h4.le
  have ht : (altAddress rs1 rs2 s).extractLsb' 8 3 = 4 := BitVec.eq_of_toNat_eq h4
  rw [ht, probeValue_four hj] at hr
  exact ⟨fun hb => by rwa [if_pos hb] at hr, fun hb => by rwa [if_neg (by rw [hb]; decide)] at hr⟩

/-- Above level 3 the walk of a probe ends at a PTE or at an invalid entry. -/
theorem lda_probe_ends (h4 : ((altAddress rs1 rs2 s).extractLsb' 8 3).toNat = 4) {j : Nat} (hj : j < 3)
    (hp : ∀ i < j, Pointer (tableEntry (altAddress rs1 rs2 s) s i)) :
    ((tableEntry (altAddress rs1 rs2 s) s j).getLsbD 1 = true →
      ProbeReturns rd rs1 rs2 s (tableEntry (altAddress rs1 rs2 s) s j)) ∧
    ((tableEntry (altAddress rs1 rs2 s) s j).extractLsb' 0 2 = 0 → ProbeReturns rd rs1 rs2 s 0) := by
  have ends (hn : ¬ Pointer (tableEntry (altAddress rs1 rs2 s) s j)) := lda_probe_walk rd h h4 ⟨hj.le, hp, fun _ => hn⟩
  refine ⟨fun hb => (ends (not_pointer_of_pte hb)).1 hb, fun h0 => (ends fun e => ?_).2 ?_⟩
  · exact absurd (h0.symm.trans e) (by decide)
  · rw [← isPte_eq_bit, isPte, entryType, h0]
    rfl

end Probes

theorem sta_flush (rd : Reg) {rs1 rs2 : Reg} {s : State} (h : SpecialAccess .word rs1 rs2 0x03 s) :
    Completes (.sta rd rs1 false 0x03 rs2) s fun t => Advanced s t ∧ Frame { mmu := true } s t ∧
      t.mmu = (flushMmu (altAddress rs1 rs2 s) s).mmu := by
  obtain ⟨t, he, hadv, hf, hm, -⟩ := sta_completes (rd := rd) h rfl (frame_flushMmu (altAddress rs1 rs2 s) s)
  exact ⟨t, he, hadv, hf, hm⟩

/-- Settles O48: a flush by the fields of the MMU; a probe of one level, and of the whole walk level by level. -/
theorem flushAndProbe : Obligations.FlushAndProbe := by
  intro rd rs1 rs2 s hs a type e0 e1 e2 e3 pointer hit returns found ha
  have h : SpecialAccess .word rs1 rs2 0x03 s := specialAccess_word hs ha (.inl (by decide)) (by decide)
  have first (h0 : pointer e0) (i : Nat) (hi : i < 1) : Pointer (tableEntry a s i) := by
    interval_cases i; exact h0
  have second (h0 : pointer e0) (h1 : pointer e1) (i : Nat) (hi : i < 2) : Pointer (tableEntry a s i) := by
    interval_cases i; exacts [h0, h1]
  have third (h0 : pointer e0) (h1 : pointer e1) (h2 : pointer e2) (i : Nat) (hi : i < 3) :
      Pointer (tableEntry a s i) := by
    interval_cases i; exacts [h0, h1, h2]
  refine ⟨?_, fun h5 => ?_, fun ht => ?_, fun ht => ?_, fun ht => ?_, fun ht => ?_, fun ht => ⟨?_, ?_, ?_⟩⟩
  · obtain ⟨t, he, hadv, hf, hm⟩ := sta_flush rd h
    have hmmu := flushMmu_mmu (altAddress rs1 rs2 s) s
    obtain ⟨hdrop, hroot, hroot', hkept, -⟩ := flushMmu_pointers (altAddress rs1 rs2 s) s
    rw [← hm] at hmmu hdrop hroot hroot' hkept
    refine ⟨t, he, hadv, hf, by rw [hmmu], by rw [hmmu], by rw [hmmu], by rw [hmmu], by rw [hmmu], fun k => ?_, fun k => ?_,
      hdrop, hroot, hroot', fun h0 => hkept (.inl h0), fun h5 => hm.trans (flushMmu_of_five_le h5 s)⟩
    · rw [hmmu, mapVec_getElem]
      exact flushEntry_cases ..
    · rw [hmmu, mapVec_getElem]
      exact flushEntry_cases ..
  · exact lda_traps h (congrArg wordRes (if_pos h5))
  · exact lda_probe_level rd h (k := 0) (congrArg (· + 0) ht) (by simp) (probed_iff_of_lt (by decide) _)
  · exact lda_probe_level rd h (k := 1) (congrArg (· + 1) ht) ⟨first, fun g => g 0 (by decide)⟩ (probed_iff_of_lt (by decide) _)
  · exact lda_probe_level rd h (k := 2) (congrArg (· + 2) ht)
      ⟨fun ⟨h0, h1⟩ => second h0 h1, fun g => ⟨g 0 (by decide), g 1 (by decide)⟩⟩ (probed_iff_of_lt (by decide) _)
  · exact lda_probe_level rd h (k := 3) (congrArg (· + 3) ht)
      ⟨fun ⟨h0, h1, h2⟩ => third h0 h1 h2, fun g => ⟨g 0 (by decide), g 1 (by decide), g 2 (by decide)⟩⟩ (probed_three_iff _)
  · exact (lda_probe_ends rd h ht (j := 0) (by decide) (by simp)).1
  · exact (lda_probe_ends rd h ht (j := 0) (by decide) (by simp)).2
  · intro h0
    obtain ⟨pte1, none1⟩ := lda_probe_ends rd h ht (j := 1) (by decide) (first h0)
    refine ⟨pte1, none1, fun h1 => ?_⟩
    obtain ⟨pte2, none2⟩ := lda_probe_ends rd h ht (j := 2) (by decide) (second h0 h1)
    refine ⟨pte2, none2, fun h2 => ?_⟩
    obtain ⟨pte3, none3⟩ := lda_probe_walk rd h ht (j := 3) ⟨le_rfl, third h0 h1 h2, fun hlt => absurd hlt (by decide)⟩
    exact ⟨fun _ => pte3, fun n => none3 (Bool.eq_false_iff.mpr fun hb => n ⟨trivial, hb⟩)⟩

end Sys2Proof.Machine
end

section
/-! The fields of the words that the diagnostic spaces of the MMU and of the data cache are read and written by (R55, R60, R74,
R674 to R678). -/

namespace Sys2Proof.Machine

open Sys2Proof.Spec

/-! ## MCNTL, MFSR and MCTX -/

theorem getLsbD_append_high {n k : Nat} (h : n ≤ k) {m : Nat} (x : BitVec m) (y : BitVec n) :
    (x ++ y).getLsbD k = x.getLsbD (k - n) := by
  rw [BitVec.getLsbD_append, if_neg (by omega)]

/-- The parts of a word of control bits, with a version number and two reserved fields among them. -/
theorem controlFields_append (x : BitVec 4) (f : BitVec 7) (g : BitVec 5) (tc ac se bt pe sb ie de pso nf en : Bool) :
    let w := 0#4 ++ x ++ f ++ BitVec.ofBool tc ++ BitVec.ofBool ac ++ BitVec.ofBool se ++ BitVec.ofBool bt ++
      BitVec.ofBool pe ++ 0#1 ++ BitVec.ofBool sb ++ BitVec.ofBool ie ++ BitVec.ofBool de ++ BitVec.ofBool pso ++ g ++
      BitVec.ofBool nf ++ BitVec.ofBool en
    w.getLsbD 0 = en ∧ w.getLsbD 1 = nf ∧ w.getLsbD 7 = pso ∧ w.getLsbD 8 = de ∧ w.getLsbD 9 = ie ∧ w.getLsbD 10 = sb ∧
      w.getLsbD 11 = false ∧ w.getLsbD 12 = pe ∧ w.getLsbD 13 = bt ∧ w.getLsbD 14 = se ∧ w.getLsbD 15 = ac ∧
      w.getLsbD 16 = tc ∧ w.extractLsb' 24 4 = x ∧ w.extractLsb' 28 4 = 0 := by
  refine ⟨?_, ?_, ?_, ?_, ?_, ?_, ?_, ?_, ?_, ?_, ?_, ?_, ?_, ?_⟩ <;>
    simp (disch := decide) only [getLsbD_append_low, getLsbD_append_high, BitVec.extractLsb'_append_eq_of_le,
      BitVec.extractLsb'_append_eq_of_add_le, Nat.reduceSub] <;> simp

/-- The fields of MCNTL in the word it reads as (R55). -/
theorem mcntlWord_fields (s : State) : (mcntlWord s).getLsbD 0 = s.mmu.cntl.en ∧ (mcntlWord s).getLsbD 1 = s.mmu.cntl.nf ∧
    (mcntlWord s).getLsbD 7 = s.mmu.cntl.pso ∧ (mcntlWord s).getLsbD 8 = s.mmu.cntl.de ∧
    (mcntlWord s).getLsbD 9 = s.mmu.cntl.ie ∧ (mcntlWord s).getLsbD 10 = s.mmu.cntl.sb ∧
    (mcntlWord s).getLsbD 11 = false ∧ (mcntlWord s).getLsbD 12 = s.mmu.cntl.pe ∧
    (mcntlWord s).getLsbD 13 = s.mmu.cntl.bt ∧ (mcntlWord s).getLsbD 14 = s.mmu.cntl.se ∧
    (mcntlWord s).getLsbD 15 = s.mmu.cntl.ac ∧ (mcntlWord s).getLsbD 16 = s.mmu.cntl.tc ∧
    (mcntlWord s).extractLsb' 24 4 = (if Config.stp1021A then 0xA else 0x8) ∧ (mcntlWord s).extractLsb' 28 4 = 0 :=
  controlFields_append ..

/-- The fields of MFSR in the word it reads as (R60). -/
theorem mfsrWord_fields (s : State) : (mfsrWord s).getLsbD 0 = s.mmu.fsr.ow ∧ (mfsrWord s).getLsbD 1 = s.mmu.fsr.fav ∧
    (mfsrWord s).extractLsb' 2 3 = s.mmu.fsr.ftype ∧ (mfsrWord s).extractLsb' 5 3 = s.mmu.fsr.atype ∧
    (mfsrWord s).extractLsb' 8 2 = s.mmu.fsr.level ∧ (mfsrWord s).extractLsb' 10 22 = s.mmu.fsr.high := by
  unfold mfsrWord
  refine ⟨?_, ?_, ?_, ?_, ?_, ?_⟩ <;>
    simp (disch := decide) only [BitVec.getLsbD_append, BitVec.extractLsb'_append_eq_of_le,
      BitVec.extractLsb'_append_eq_of_add_le] <;> simp

/-- The context register keeps the low bits of a number (R59, R664). -/
theorem contextNumber_toNat (w : Word) : (contextNumber w).toNat = w.toNat % 2 ^ Config.ctxBits.val := by
  have hpow : 2 ^ Config.ctxBits.val ≤ 2 ^ 32 := Nat.pow_le_pow_right (by decide) (by omega)
  have hpos := Nat.two_pow_pos Config.ctxBits.val
  rw [contextNumber, BitVec.toNat_and, BitVec.toNat_ofNat, Nat.mod_eq_of_lt (by omega), Nat.and_two_pow_sub_one_eq_mod]

/-! ## TLB entries (R674, R675) -/

/-- The word that an entry is read as. -/
theorem entryWord_tlbWord (data : Bool) (e : TlbEntry) : EntryWord { e with m := data && e.m } (tlbWord data e) := by
  unfold tlbWord
  refine ⟨?_, ?_, ?_, ?_, ?_, ?_⟩ <;>
    simp (disch := decide) only [BitVec.getLsbD_append, BitVec.extractLsb'_append_eq_of_le,
      BitVec.extractLsb'_append_eq_of_add_le] <;> simp

/-- A word determines the fields of the entry that it is the word of. -/
theorem eq_tlbOfWord {w : Word} {e e' : TlbEntry} (h : EntryWord e' w) (hvtag : e'.vtag = e.vtag) (hctx : e'.ctx = e.ctx)
    (hrbo : e'.rbo = e.rbo) (hlock : e'.lock = e.lock) : tlbOfWord true w e = e' := by
  obtain ⟨hppn, hc, hm, hv, hacc, hlvl⟩ := h
  simp only [tlbOfWord, hppn, hc, hm, hv, hacc, hlvl, Equiv.symm_apply_apply, Bool.true_and, ← hvtag, ← hctx, ← hrbo, ← hlock]

/-- The I-TLB takes a word as if its M bit were 0 (D35). -/
theorem tlbOfWord_false (w : Word) (e : TlbEntry) : tlbOfWord false w e = tlbOfWord true (w &&& 0xFFFFFFBF) e := by
  have hppn : (0xFFFFFFBF : Word).extractLsb' 8 24 = BitVec.allOnes 24 := by decide
  have hacc : (0xFFFFFFBF : Word).extractLsb' 2 3 = BitVec.allOnes 3 := by decide
  have hlvl : (0xFFFFFFBF : Word).extractLsb' 0 2 = BitVec.allOnes 2 := by decide
  simp only [tlbOfWord, BitVec.extractLsb'_and, hppn, hacc, hlvl, BitVec.and_allOnes, BitVec.getLsbD_and]
  simp

/-- The word of RBO and Lock as a number. -/
theorem lockWord_toNat (data : Bool) (e : TlbEntry) :
    (lockWord data e).toNat = 2 * (data && e.rbo).toNat + e.lock.toNat := by
  unfold lockWord
  cases data && e.rbo <;> cases e.lock <;> rfl

/-! ## Data cache tags (R74, R705) -/

/-- A tag is a word of its valid bit and a word of its address. -/
theorem dtagWord_eq_append (t : DTag) :
    dtagWord t = (0#7 ++ BitVec.ofBool t.v ++ 0#24 : Word) ++ (0#8 ++ t.paddr : Word) := by
  apply BitVec.eq_of_toNat_eq
  simp only [dtagWord, toNat_append_eq, BitVec.toNat_zero]
  omega

end Sys2Proof.Machine
end

section
/-! The registers of ASI 0x04, the diagnostic spaces of the TLBs, of the pointer caches and of the data cache tags, and the
flash clears (45_mmu_asi_operations.md, R660 to R680; 46_cache_diag_and_monitor_asi.md, R705, R712). -/

namespace Sys2Proof.Machine

open Sys2Proof.Spec

/-! ## What the spaces answer -/

theorem storeAsi_mmuRegister (a v : Word) (s : State) :
    storeAsi 0x04 .word a (v.setWidth 64) s = storeMmuRegister a v s :=
  congrArg (storeMmuRegister a · s) (lowWord_setWidth v)

theorem storeAsi_tlb_instr (a v : Word) (s : State) : storeAsi 0x05 .word a (v.setWidth 64) s = storeTlb false a v s :=
  congrArg (storeTlb false a · s) (lowWord_setWidth v)

theorem storeAsi_tlb_data (a v : Word) (s : State) : storeAsi 0x06 .word a (v.setWidth 64) s = storeTlb true a v s :=
  congrArg (storeTlb true a · s) (lowWord_setWidth v)

/-- ASI 0x04 at an address of no register. -/
theorem mmuRegister_refused {a : Word} (h : a.toNat ∉ [0x000, 0x100, 0x200, 0x300, 0x400, 0x1500]) (v : Word) (s : State) :
    loadMmuRegister a s = .refused .asiRegister ∧ storeMmuRegister a v s = .refused .asiRegister := by
  constructor
  · unfold loadMmuRegister
    split
    all_goals first
      | rfl
      | (rename_i e; exact absurd (by rw [e]; decide) h)
  · unfold storeMmuRegister
    split
    all_goals first
      | rfl
      | (rename_i e; exact absurd (by rw [e]; decide) h)

/-! ## MCNTL (R661, R662, R72, R73) -/

theorem all_toList_eq_false_iff {α : Type} {n : Nat} {p : α → Bool} {v : Vector α n} :
    v.toList.all p = false ↔ ∃ i : Fin n, p v[i] = false := by
  rw [List.all_eq_false]
  constructor
  · rintro ⟨x, hm, hx⟩
    obtain ⟨i, hi, rfl⟩ := Vector.mem_iff_getElem.mp (Vector.mem_toList_iff.mp hm)
    exact ⟨⟨i, hi⟩, Bool.eq_false_iff.mpr hx⟩
  · rintro ⟨i, hi⟩
    exact ⟨v[i], Vector.mem_toList_iff.mpr (Vector.getElem_mem _), Bool.eq_false_iff.mp hi⟩

/-- The stored word switches on a cache that has not been cleared. -/
theorem enablesUncleared_iff (v : Word) (s : State) : enablesUncleared v s = true ↔
    (v.getLsbD 9 = true ∧ s.mmu.cntl.ie = false ∧ s.icacheCleared = false) ∨
      (v.getLsbD 8 = true ∧ s.mmu.cntl.de = false ∧ ∃ k : Fin 512, s.dtags[k].cleared = false) := by
  have hd : dcacheCleared s = false ↔ ∃ k : Fin 512, s.dtags[k].cleared = false := all_toList_eq_false_iff
  simp only [enablesUncleared, Bool.or_eq_true, Bool.and_eq_true, Bool.not_eq_true', and_assoc, hd]

theorem writeMcntl_mmu (v : Word) (s : State) : (writeMcntl v s).mmu = { s.mmu with cntl := mcntlOfWord v } := by
  unfold writeMcntl
  dsimp only
  split_ifs <;> rfl

theorem writeMcntl_icacheCleared (v : Word) (s : State) : (writeMcntl v s).icacheCleared = s.icacheCleared := by
  unfold writeMcntl
  dsimp only
  split_ifs <;> rfl

/-- Only switching the data cache off touches its tags (log 20). -/
theorem writeMcntl_dtags {v : Word} {s : State} (h : s.mmu.cntl.de = false ∨ v.getLsbD 8 = true) :
    (writeMcntl v s).dtags = s.dtags := by
  unfold writeMcntl
  dsimp only
  rw [if_neg]
  intro hoff
  simp only [Bool.and_eq_true, Bool.not_eq_true'] at hoff
  rcases h with h | h
  · rw [h] at hoff; exact absurd hoff.1 (by decide)
  · rw [h] at hoff; exact absurd hoff.2 (by decide)

theorem writeMcntl_mon (v : Word) (s : State) : (writeMcntl v s).mon = s.mon := by
  unfold writeMcntl
  dsimp only
  split_ifs <;> rfl

/-! ## Loads and stores of the MMU -/

section Accesses

variable {rd rs1 rs2 : Reg} {asi : Asi} {s : State} (h : SpecialAccess .word rs1 rs2 asi s)
include h

theorem lda_readsWord {w : Word} {P : Word → Prop}
    (hl : loadAsi asi .word (altAddress rs1 rs2 s) s = .ok (w.setWidth 64) s) (hw : P w) : ReadsWord asi rd rs1 rs2 s P := by
  obtain ⟨t, he, hadv, hv, hf⟩ := lda_reads (rd := rd) h hl
  exact ⟨t, he, hadv, hf, w, hw, hv⟩

theorem sta_writesMmu {m : Mmu}
    (hs : storeAsi asi .word (altAddress rs1 rs2 s) ((readReg rd s).setWidth 64) s = .ok () { s with mmu := m }) :
    WritesMmu asi rd rs1 rs2 s m := by
  obtain ⟨t, he, hadv, hf, hm, -⟩ := sta_completes (f := { mmu := true }) h hs ((Frame.refl _ s).setMmu rfl m)
  exact ⟨t, he, hadv, hf, hm⟩

end Accesses

/-! ## The TLBs (R674, R675, R876) -/

/-- Every entry of the TLB is locked and valid. -/
theorem allLocked_iff {n : Nat} {tlb : Vector TlbEntry n} :
    allLocked tlb = true ↔ ∀ j : Fin n, tlb[j].lock = true ∧ tlb[j].v = true := by
  rw [← not_iff_not, Bool.not_eq_true, allLocked_eq_false_iff]
  simp

/-- The index in the address bits from 12 up (R672). -/
theorem index_eq {m : Nat} (a : Word) {k : Fin (2 ^ m)} (h : k.val = a.toNat / 4096 % 2 ^ m) :
    (a.extractLsb' 12 m).toFin = k :=
  Fin.ext (by rw [h, BitVec.val_toFin, BitVec.extractLsb'_toNat, Nat.shiftRight_eq_div_pow])

/-- Entry `k` of the TLB `tlb` is the one that the space of a side reaches at an address, and `put` replaces that TLB. -/
structure SelectsEntry {n : Nat} (data : Bool) (a : Word) (s : State) (tlb : Vector TlbEntry n)
    (put : Vector TlbEntry n → Mmu) (k : Fin n) : Prop where
  selected : selectedEntry data a s = tlb[k]
  set : ∀ e, setEntry data a e s = { s with mmu := put (tlb.set k e) }
  locked : ∀ x, sideLocked data { s with mmu := put x } = allLocked x

theorem selectsEntry_data {a : Word} {k : Fin 64} (h : k.val = a.toNat / 4096 % 64) (s : State) :
    SelectsEntry true a s s.mmu.dtlb (fun x => { s.mmu with dtlb := x }) k := by
  obtain rfl : dtlbIndex a = k := index_eq (m := 6) a h
  exact ⟨rfl, fun _ => rfl, fun _ => rfl⟩

theorem selectsEntry_instr {a : Word} {k : Fin 16} (h : k.val = a.toNat / 4096 % 16) (s : State) :
    SelectsEntry false a s s.mmu.itlb (fun x => { s.mmu with itlb := x }) k := by
  obtain rfl : itlbIndex a = k := index_eq (m := 4) a h
  exact ⟨rfl, fun _ => rfl, fun _ => rfl⟩

/-- ASI 0x05 or 0x06, for its side. -/
structure TlbSpace (data : Bool) (asi : Asi) : Prop where
  load : ∀ a s, loadAsi asi .word a s = wordRes (loadTlb data a s)
  store : ∀ a (v : Word) s, storeAsi asi .word a (v.setWidth 64) s = storeTlb data a v s

theorem tlbSpace_instr : TlbSpace false 0x05 := ⟨fun _ _ => rfl, storeAsi_tlb_instr⟩

theorem tlbSpace_data : TlbSpace true 0x06 := ⟨fun _ _ => rfl, storeAsi_tlb_data⟩

/-! ## The TLBs and the pointer caches, by Sel (R673) -/

section Sel

variable (data : Bool) {a : Word} (v : Word) (s : State)

theorem loadTlb_entry (h : (a.extractLsb' 8 3).toNat = 2) :
    loadTlb data a s = .ok (tlbWord data (selectedEntry data a s)) s := by rw [loadTlb, h]; rfl

theorem loadTlb_lock (h : (a.extractLsb' 8 3).toNat = 3) :
    loadTlb data a s = .ok (lockWord data (selectedEntry data a s)) s := by rw [loadTlb, h]; rfl

theorem loadTlb_ptp0 (h : (a.extractLsb' 8 3).toNat = 4) : loadTlb data a s = .ok (ptp0Word s.mmu.ptp0) s := by
  rw [loadTlb, h]; rfl

theorem loadTlb_ptp2 (h : (a.extractLsb' 8 3).toNat = 5) :
    loadTlb data a s = .ok (ptp2Word (selectedPtp2 data a s)) s := by rw [loadTlb, h]; rfl

theorem loadTlb_tag (h : (a.extractLsb' 8 3).toNat = 6) :
    loadTlb data a s = .ok (tagWord (selectedPtp2 data a s)) s := by rw [loadTlb, h]; rfl

theorem storeTlb_entry (h : (a.extractLsb' 8 3).toNat = 2) :
    storeTlb data a v s = storeEntry data a (tlbOfWord data v (selectedEntry data a s)) s := by rw [storeTlb, h]; rfl

theorem storeTlb_lock (h : (a.extractLsb' 8 3).toNat = 3) :
    storeTlb data a v s = storeEntry data a (lockOfWord data v (selectedEntry data a s)) s := by rw [storeTlb, h]; rfl

theorem storeTlb_ptp0 (h : (a.extractLsb' 8 3).toNat = 4) : storeTlb data a v s =
    if v.getLsbD 1 then .refused .ptpValid
    else .ok () { s with mmu := { s.mmu with ptp0 := { ptr := v.extractLsb' 6 26, valid := v.extractLsb' 0 2 } } } := by
  rw [storeTlb, h]; rfl

theorem storeTlb_ptp2 (h : (a.extractLsb' 8 3).toNat = 5) : storeTlb data a v s =
    if v.getLsbD 1 then .refused .ptpValid
    else .ok () (setPtp2 data a { selectedPtp2 data a s with ptr := v.extractLsb' 4 28, valid := v.extractLsb' 0 2 } s) := by
  rw [storeTlb, h]; rfl

theorem storeTlb_tag (h : (a.extractLsb' 8 3).toNat = 6) : storeTlb data a v s =
    .ok () (setPtp2 data a { selectedPtp2 data a s with tag := v.extractLsb' 18 14 } s) := by rw [storeTlb, h]; rfl

theorem tlb_undescribed (h : (a.extractLsb' 8 3).toNat ∈ [0, 1, 7]) :
    loadTlb data a s = .refused .tlbSelect ∧ storeTlb data a v s = .refused .tlbSelect := by
  simp only [List.mem_cons, List.not_mem_nil, or_false] at h
  rcases h with e | e | e <;> exact ⟨by rw [loadTlb, e]; rfl, by rw [storeTlb, e]; rfl⟩

end Sel

section Tlb

variable {rd rs1 rs2 : Reg} {data : Bool} {asi : Asi} {s : State} (h : SpecialAccess .word rs1 rs2 asi s)
  (hasi : TlbSpace data asi)
include h hasi

/-- A store of an entry, unless it would lock the whole TLB (R876). -/
theorem sta_entry {n : Nat} {tlb : Vector TlbEntry n} {put : Vector TlbEntry n → Mmu} {k : Fin n}
    (hk : SelectsEntry data (altAddress rs1 rs2 s) s tlb put k) {e : TlbEntry}
    (hs : storeTlb data (altAddress rs1 rs2 s) (readReg rd s) s = storeEntry data (altAddress rs1 rs2 s) e s) :
    let full := ∀ j : Fin n, (tlb.set k e)[j].lock = true ∧ (tlb.set k e)[j].v = true
    (full → exec (.sta rd rs1 false asi rs2) s = .refused .tlbAllLocked) ∧
      (¬ full → WritesMmu asi rd rs1 rs2 s (put (tlb.set k e))) := by
  intro full
  have hfull : sideLocked data { s with mmu := put (tlb.set k e) } = true ↔ full := by
    rw [hk.locked, allLocked_iff]
  have hs := (hasi.store _ _ s).trans hs
  rw [storeEntry, hk.set] at hs
  exact ⟨fun hf => sta_refused h (hs.trans (if_pos (hfull.mpr hf))),
    fun hf => sta_writesMmu h (hs.trans (if_neg (hfull.not.mpr hf)))⟩

/-- The word that a load in the space reads. -/
theorem lda_readsTlb {w : Word} {P : Word → Prop} (hl : loadTlb data (altAddress rs1 rs2 s) s = .ok w s) (hw : P w) :
    ReadsWord asi rd rs1 rs2 s P :=
  lda_readsWord h (by rw [hasi.load, hl]; rfl) hw

theorem sta_writesTlb {m : Mmu}
    (hs : storeTlb data (altAddress rs1 rs2 s) (readReg rd s) s = .ok () { s with mmu := m }) :
    WritesMmu asi rd rs1 rs2 s m :=
  sta_writesMmu h ((hasi.store _ _ s).trans hs)

theorem sta_tlb_refused {r : Refusal} (hs : storeTlb data (altAddress rs1 rs2 s) (readReg rd s) s = .refused r) :
    exec (.sta rd rs1 false asi rs2) s = .refused r :=
  sta_refused h ((hasi.store _ _ s).trans hs)

theorem entryAccesses (rd : Reg) {n : Nat} {tlb : Vector TlbEntry n} {put : Vector TlbEntry n → Mmu} {k : Fin n}
    (hk : SelectsEntry data (altAddress rs1 rs2 s) s tlb put k) : EntryAccesses data asi rd rs1 rs2 s tlb put k := by
  refine ⟨fun h2 => ⟨?_, fun e' he' hvtag hctx hrbo hlock => sta_entry h hasi hk ?_⟩, fun h3 => ⟨?_, sta_entry h hasi hk ?_⟩⟩
  · exact lda_readsTlb h hasi (loadTlb_entry data s h2) (hk.selected ▸ entryWord_tlbWord ..)
  · have hword : tlbOfWord data (readReg rd s) tlb[k] = e' := by
      cases data
      · exact (tlbOfWord_false ..).trans (eq_tlbOfWord he' hvtag hctx hrbo hlock)
      · exact eq_tlbOfWord he' hvtag hctx hrbo hlock
    rw [storeTlb_entry (a := altAddress rs1 rs2 s) data (readReg rd s) s h2, hk.selected, hword]
  · exact lda_readsTlb h hasi (loadTlb_lock data s h3) (hk.selected ▸ lockWord_toNat ..)
  · rw [storeTlb_lock (a := altAddress rs1 rs2 s) data (readReg rd s) s h3, hk.selected]
    rfl

/-! ## The pointer caches (R676 to R678) -/

theorem pointerAccesses (rd : Reg) {p : Ptp2} {put : Ptp2 → Mmu} (hp : selectedPtp2 data (altAddress rs1 rs2 s) s = p)
    (hset : ∀ q, setPtp2 data (altAddress rs1 rs2 s) q s = { s with mmu := put q }) :
    PointerAccesses asi rd rs1 rs2 s p put := by
  refine ⟨fun h5 => ⟨?_, fun hv => ?_, fun hv => ?_⟩, fun h6 => ⟨?_, ?_⟩⟩
  · exact lda_readsTlb h hasi (loadTlb_ptp2 data s h5) (hp ▸ rfl)
  · exact sta_tlb_refused h hasi ((storeTlb_ptp2 data _ s h5).trans (if_pos hv))
  · refine sta_writesTlb h hasi ((storeTlb_ptp2 (a := altAddress rs1 rs2 s) data _ s h5).trans ((if_neg (by rw [hv]; decide)).trans ?_))
    rw [hset, hp]
  · exact lda_readsTlb h hasi (loadTlb_tag data s h6) (hp ▸ rfl)
  · refine sta_writesTlb h hasi ((storeTlb_tag (a := altAddress rs1 rs2 s) data _ s h6).trans ?_)
    rw [hset, hp]

theorem ptp0_accesses (rd : Reg) (h4 : ((altAddress rs1 rs2 s).extractLsb' 8 3).toNat = 4) :
    let v := readReg rd s
    ReadsWord asi rd rs1 rs2 s (· = s.mmu.ptp0.ptr ++ 0#4 ++ s.mmu.ptp0.valid) ∧
    (v.getLsbD 1 = true → exec (.sta rd rs1 false asi rs2) s = .refused .ptpValid) ∧
    (v.getLsbD 1 = false → WritesMmu asi rd rs1 rs2 s
      { s.mmu with ptp0 := { ptr := v.extractLsb' 6 26, valid := v.extractLsb' 0 2 } }) :=
  ⟨lda_readsTlb h hasi (loadTlb_ptp0 data s h4) rfl,
    fun hv => sta_tlb_refused h hasi ((storeTlb_ptp0 data _ s h4).trans (if_pos hv)),
    fun hv => sta_writesTlb h hasi ((storeTlb_ptp0 data _ s h4).trans (if_neg (by rw [hv]; decide)))⟩

/-- Sel 0, 1 and 7 name nothing whose format is known (R679). -/
theorem tlbSelect_refused (rd : Reg) (hsel : ((altAddress rs1 rs2 s).extractLsb' 8 3).toNat ∈ [0, 1, 7]) :
    exec (.lda rd rs1 false asi rs2) s = .refused .tlbSelect ∧ exec (.sta rd rs1 false asi rs2) s = .refused .tlbSelect := by
  obtain ⟨hl, hs⟩ := tlb_undescribed data (readReg rd s) s hsel
  exact ⟨lda_refused h (by rw [hasi.load, hl]; rfl), sta_tlb_refused h hasi hs⟩

end Tlb

/-! ## The data cache (R705, R712) -/

section Dcache

variable {rd rs1 rs2 : Reg} {s : State}

/-- A doubleword load that its space accepts leaves its two words in the pair. -/
theorem ldda_completes {asi : Asi} (h : SpecialAccess .dword rs1 rs2 asi s) (he : rd.getLsbD 0 = false) {v w : Word}
    {u : State}
    (hl : loadAsi asi .dword (altAddress rs1 rs2 s) s = .ok (v ++ w) u)
    (hf : Frame { slots := [slot s.psr.cwp rd, slot s.psr.cwp (rd ||| 1)] } s u) :
    Completes (.ldda rd rs1 false asi rs2) s fun t => Advanced s t ∧
      Frame { slots := [slot s.psr.cwp rd, slot s.psr.cwp (rd ||| 1)] } s t ∧ Holds rd v t ∧ Holds (rd ||| 1) w t := by
  have c := controlled_of_loadAsi hl
  obtain ⟨hhi, hlo⟩ := holds_pair he v w u
  refine ⟨_, ?_, ⟨by simp [c.npc], by simp [c.npc]⟩, ?_, hhi, hlo⟩
  · rw [exec_ldda h he, hl, andThen_ok, finish_ok, highWord_append, lowWord_append]
  · exact ((hf.writeReg (by simp [c.psr]) v).writeReg (by simp [c.psr, pairOdd]) w).advance

/-- While the data cache is on nothing is known of the tag that a load reads (log 20). -/
theorem loadDtag_eq (a : Word) (s : State) : ∃ (t : DTag) (u : State), loadDtag a s = .ok (dtagWord t) u ∧
    (u = s ∨ u = drawn s) ∧ (s.mmu.cntl.de = false → t = s.dtags[Config.dcacheLine a]) := by
  cases hde : s.mmu.cntl.de
  · exact ⟨_, s, if_neg (by rw [hde]; decide), .inl rfl, fun _ => rfl⟩
  · exact ⟨_, drawn s, if_pos hde, .inr rfl, fun e => absurd e (by decide)⟩

theorem ldda_dtag (h : SpecialAccess .dword rs1 rs2 0x0E s) (he : rd.getLsbD 0 = false) :
    Completes (.ldda rd rs1 false 0x0E rs2) s fun t => Advanced s t ∧
      Frame { slots := [slot s.psr.cwp rd, slot s.psr.cwp (rd ||| 1)] } s t ∧
      ∃ (valid : Bool) (paddr : BitVec 24), Holds rd (0#7 ++ BitVec.ofBool valid ++ 0#24) t ∧
        Holds (rd ||| 1) (0#8 ++ paddr) t ∧
        (s.mmu.cntl.de = false → valid = s.dtags[Config.dcacheLine (altAddress rs1 rs2 s)].v ∧
          paddr = s.dtags[Config.dcacheLine (altAddress rs1 rs2 s)].paddr) := by
  obtain ⟨tag, u, hl, hu, htag⟩ := loadDtag_eq (altAddress rs1 rs2 s) s
  rw [dtagWord_eq_append] at hl
  have hf : Frame { slots := [slot s.psr.cwp rd, slot s.psr.cwp (rd ||| 1)] } s u := by
    rcases hu with rfl | rfl
    · exact .refl ..
    · exact (Frame.refl ..).drawn
  obtain ⟨t, hx, hadv, hft, hhi, hlo⟩ := ldda_completes h he (show loadAsi 0x0E .dword _ s = _ from hl) hf
  exact ⟨t, hx, hadv, hft, tag.v, tag.paddr, hhi, hlo, fun hde => by rw [htag hde]; exact ⟨rfl, rfl⟩⟩

theorem storeDtag_dtags (a hi lo : Word) (s : State) : (storeDtag a (hi ++ lo) s).dtags =
    s.dtags.set (Config.dcacheLine a)
      { v := hi.getLsbD 24, paddr := lo.extractLsb' 0 24,
        cleared := s.dtags[Config.dcacheLine a].cleared || !hi.getLsbD 24 } := by
  have hv : (hi ++ lo).getLsbD 56 = hi.getLsbD 24 := getLsbD_append_high (by decide) hi lo
  have hp : (hi ++ lo).extractLsb' 0 24 = lo.extractLsb' 0 24 := extract_append_low (by decide) hi lo
  unfold storeDtag
  dsimp only
  rw [hv, hp]

theorem stda_dtag (h : SpecialAccess .dword rs1 rs2 0x0E s) (he : rd.getLsbD 0 = false) :
    let k := Config.dcacheLine (altAddress rs1 rs2 s)
    Completes (.stda rd rs1 false 0x0E rs2) s fun t => Advanced s t ∧ Frame { dtags := true } s t ∧
      t.icacheCleared = s.icacheCleared ∧
      t.dtags = s.dtags.set k { v := (readReg rd s).getLsbD 24, paddr := (readReg (rd ||| 1) s).extractLsb' 0 24,
                                cleared := s.dtags[k].cleared || !(readReg rd s).getLsbD 24 } := by
  intro k
  have hs : storeAsi 0x0E .dword (altAddress rs1 rs2 s) (readReg rd s ++ readReg (pairOdd rd) s) s = .ok () _ := rfl
  obtain ⟨t, hx, hadv, hf, -, hd, hi⟩ := completes_storeAsi (f := { dtags := true }) (exec_stda h he) hs
    ((controlled_of_storeAsi hs).frame (fun _ => rfl) nofun fun _ => rfl)
  exact ⟨t, hx, hadv, hf, hi, hd.trans (storeDtag_dtags ..)⟩

theorem sta_flashClearInstr (h : SpecialAccess .word rs1 rs2 0x36 s) :
    Completes (.sta rd rs1 false 0x36 rs2) s fun t => Advanced s t ∧ Frame { dtags := true } s t ∧
      t.dtags = s.dtags ∧ t.icacheCleared = true := by
  have hs : storeAsi 0x36 .word (altAddress rs1 rs2 s) ((readReg rd s).setWidth 64) s = .ok () (flashClearInstr s) := rfl
  obtain ⟨t, hx, hadv, hf, -, hd, hi⟩ := sta_completes (f := { dtags := true }) h hs
    ((controlled_of_storeAsi hs).frame (fun _ => rfl) nofun fun _ => rfl)
  exact ⟨t, hx, hadv, hf, hd, hi⟩

/-- A flash clear changes the tags of the data cache alone. -/
theorem flashClear_fields (s : State) : (flashClear s).mmu = s.mmu ∧ (flashClear s).mon = s.mon ∧
    (flashClear s).icacheCleared = s.icacheCleared ∧
    ∀ k : Fin 512, (flashClear s).dtags[k] = { s.dtags[k] with v := false, cleared := true } := by
  unfold flashClear
  refine ⟨rfl, rfl, rfl, fun k => ?_⟩
  dsimp only
  rw [mapVec_getElem]

theorem sta_flashClear (h : SpecialAccess .word rs1 rs2 0x37 s) :
    Completes (.sta rd rs1 false 0x37 rs2) s fun t => Advanced s t ∧ Frame { dtags := true } s t ∧
      t.icacheCleared = s.icacheCleared ∧ ∀ k : Fin 512, t.dtags[k] = { s.dtags[k] with v := false, cleared := true } := by
  have hs : storeAsi 0x37 .word (altAddress rs1 rs2 s) ((readReg rd s).setWidth 64) s = .ok () (flashClear s) := rfl
  obtain ⟨hmmu, hmon, hicache, hdtags⟩ := flashClear_fields s
  obtain ⟨t, hx, hadv, hf, -, hd, hi⟩ := sta_completes (f := { dtags := true }) h hs
    ((controlled_of_storeAsi hs).frame (fun _ => hmmu) nofun fun _ => hmon)
  exact ⟨t, hx, hadv, hf, hi.trans hicache, fun k => by rw [hd, hdtags k]⟩

end Dcache

/-! ## The registers of ASI 0x04 -/

/-- A word store in ASI 0x04 completes in a state of which `q` holds. -/
def StoresRegister (rd rs1 rs2 : Reg) (s : State) (q : State → Prop) : Prop :=
  Completes (.sta rd rs1 false 0x04 rs2) s fun t => Advanced s t ∧ q t

/-- A word load in ASI 0x04 completes in a state of which `q` holds and writes `rd` and what `w` lists. -/
def LoadsRegister (rd rs1 rs2 : Reg) (s : State) (w : Writes) (q : State → Prop) : Prop :=
  Completes (.lda rd rs1 false 0x04 rs2) s fun t => Advanced s t ∧ Frame { w with slots := [slot s.psr.cwp rd] } s t ∧ q t

section Registers

variable (rd : Reg) {rs1 rs2 : Reg} {s : State} (h : SpecialAccess .word rs1 rs2 0x04 s)
include h

theorem sta_mcntl (ha : altAddress rs1 rs2 s = 0x000) :
    let v := readReg rd s
    let uncleared :=
      (v.getLsbD 9 = true ∧ s.mmu.cntl.ie = false ∧ s.icacheCleared = false) ∨
        (v.getLsbD 8 = true ∧ s.mmu.cntl.de = false ∧ ∃ k : Fin 512, s.dtags[k].cleared = false)
    (uncleared → exec (.sta rd rs1 false 0x04 rs2) s = .refused .cacheNotCleared) ∧
    (¬ uncleared → StoresRegister rd rs1 rs2 s fun t => Frame { mmu := true, dtags := true } s t ∧
      t.icacheCleared = s.icacheCleared ∧ (s.mmu.cntl.de = false ∨ v.getLsbD 8 = true → t.dtags = s.dtags) ∧
      t.mmu = { s.mmu with cntl := mcntlOfWord v }) := by
  intro v uncleared
  have hu : enablesUncleared v s = true ↔ uncleared := enablesUncleared_iff v s
  have hs := storeAsi_mmuRegister (altAddress rs1 rs2 s) v s
  have hreg : storeMmuRegister (altAddress rs1 rs2 s) v s =
      if enablesUncleared v s then .refused .cacheNotCleared else .ok () (writeMcntl v s) := by
    rw [ha]
    rfl
  refine ⟨fun hc => sta_refused h (hs.trans (hreg.trans (if_pos (hu.mpr hc)))), fun hc => ?_⟩
  have hs := hs.trans (hreg.trans (if_neg (hu.not.mpr hc)))
  obtain ⟨t, hx, hadv, hf, hm, hd, hi⟩ := sta_completes (f := { mmu := true, dtags := true }) h hs
    ((controlled_of_storeAsi hs).frame nofun nofun fun _ => writeMcntl_mon v s)
  exact ⟨t, hx, hadv, hf, hi.trans (writeMcntl_icacheCleared v s), fun e => hd.trans (writeMcntl_dtags e),
    hm.trans (writeMcntl_mmu v s)⟩

/-- A store in ASI 0x04 that changes the MMU alone. -/
theorem storesRegister {m : Mmu} {q : State → Prop}
    (hs : storeMmuRegister (altAddress rs1 rs2 s) (readReg rd s) s = .ok () { s with mmu := m })
    (hq : ∀ t : State, t.mmu = m → q t) : StoresRegister rd rs1 rs2 s fun t => Frame { mmu := true } s t ∧ q t := by
  obtain ⟨t, hx, hadv, hf, hm⟩ := sta_writesMmu h ((storeAsi_mmuRegister ..).trans hs)
  exact ⟨t, hx, hadv, hf, hq t hm⟩

theorem loadsRegister {v : Word} {u : State} {f : Writes} {q : State → Prop}
    (hl : loadMmuRegister (altAddress rs1 rs2 s) s = .ok v u) (hf : Frame { f with slots := [slot s.psr.cwp rd] } s u)
    (hq : ∀ t : State, Holds rd v t → t.mmu = u.mmu → q t) : LoadsRegister rd rs1 rs2 s f q := by
  have hl : loadAsi 0x04 .word (altAddress rs1 rs2 s) s = .ok (v.setWidth 64) u := congrArg wordRes hl
  obtain ⟨t, hx, hadv, hft, hv, hm⟩ := lda_completes (rd := rd) h hl hf (List.mem_singleton.mpr rfl)
  exact ⟨t, hx, hadv, hft, hq t hv hm⟩

theorem lda_mcntl (ha : altAddress rs1 rs2 s = 0x000) : LoadsRegister rd rs1 rs2 s {} fun t => Holds rd (mcntlWord s) t := by
  have hl : loadMmuRegister (altAddress rs1 rs2 s) s = .ok (mcntlWord s) (drawn s) := by rw [ha]; rfl
  exact loadsRegister rd h hl (Frame.refl _ s).drawn fun t hv _ => hv

/-- A store of MCTP empties the pointer caches (D43). -/
theorem sta_mctp (ha : altAddress rs1 rs2 s = 0x100) : StoresRegister rd rs1 rs2 s fun t => Frame { mmu := true } s t ∧
    t.mmu.ctp = (readReg rd s).extractLsb' 2 30 ∧ t.mmu.ctx = s.mmu.ctx ∧ t.mmu.cntl = s.mmu.cntl ∧
    t.mmu.dtlb = s.mmu.dtlb ∧ t.mmu.itlb = s.mmu.itlb ∧ t.mmu.ptp0.valid = 0 ∧ t.mmu.iptp2.valid = 0 ∧
    ∀ k : Fin 4, t.mmu.dptp2[k].valid = 0 := by
  have hs : storeMmuRegister (altAddress rs1 rs2 s) (readReg rd s) s =
      .ok () { s with mmu := dropPtp0 (dropPtp2 { s.mmu with ctp := (readReg rd s).extractLsb' 2 30 }) } := by rw [ha]; rfl
  refine storesRegister rd h hs fun t hm => ?_
  rw [hm]
  exact ⟨rfl, rfl, rfl, rfl, rfl, rfl, dropPtp2_valid _⟩

theorem lda_mctp (ha : altAddress rs1 rs2 s = 0x100) :
    LoadsRegister rd rs1 rs2 s {} fun t => ∃ w : Word, Holds rd w t ∧ w.extractLsb' 2 30 = s.mmu.ctp := by
  have hl : loadMmuRegister (altAddress rs1 rs2 s) s = .ok (s.mmu.ctp ++ (freeValue s).extractLsb' 0 2) (drawn s) := by
    rw [ha]; rfl
  exact loadsRegister rd h hl (Frame.refl _ s).drawn fun t hv _ => ⟨_, hv, BitVec.extractLsb'_append_eq_left⟩

/-- So does a store of MCTX. -/
theorem sta_mctx (ha : altAddress rs1 rs2 s = 0x200) : StoresRegister rd rs1 rs2 s fun t => Frame { mmu := true } s t ∧
    t.mmu.ctx.toNat = (readReg rd s).toNat % 2 ^ Config.ctxBits.val ∧ t.mmu.ctp = s.mmu.ctp ∧ t.mmu.cntl = s.mmu.cntl ∧
    t.mmu.dtlb = s.mmu.dtlb ∧ t.mmu.itlb = s.mmu.itlb ∧ t.mmu.ptp0.valid = 0 ∧ t.mmu.iptp2.valid = 0 ∧
    ∀ k : Fin 4, t.mmu.dptp2[k].valid = 0 := by
  have hs : storeMmuRegister (altAddress rs1 rs2 s) (readReg rd s) s =
      .ok () { s with mmu := dropPtp0 (dropPtp2 { s.mmu with ctx := contextNumber (readReg rd s) }) } := by rw [ha]; rfl
  refine storesRegister rd h hs fun t hm => ?_
  rw [hm]
  exact ⟨contextNumber_toNat _, rfl, rfl, rfl, rfl, rfl, dropPtp2_valid _⟩

theorem lda_mctx (ha : altAddress rs1 rs2 s = 0x200) : LoadsRegister rd rs1 rs2 s {} fun t => Holds rd s.mmu.ctx t := by
  have hl : loadMmuRegister (altAddress rs1 rs2 s) s = .ok s.mmu.ctx s := by rw [ha]; rfl
  exact loadsRegister rd h hl (.refl _ s) fun t hv _ => hv

/-- A load of MFSR clears it (R665). -/
theorem lda_mfsr (ha : altAddress rs1 rs2 s = 0x300) : LoadsRegister rd rs1 rs2 s { mmu := true } fun t =>
    Holds rd (mfsrWord s) t ∧
    t.mmu = { s.mmu with fsr := { ow := false, fav := false, ftype := 0, atype := 0, level := 0, high := 0 } } := by
  have hl : loadMmuRegister (altAddress rs1 rs2 s) s = .ok (mfsrWord s) { s with mmu :=
      { s.mmu with fsr := { ow := false, fav := false, ftype := 0, atype := 0, level := 0, high := 0 } } } := by rw [ha]; rfl
  exact loadsRegister rd h hl ((Frame.refl _ s).setMmu rfl _) fun t hv hm => ⟨hv, hm⟩

theorem lda_mfar (ha : altAddress rs1 rs2 s = 0x400) : LoadsRegister rd rs1 rs2 s {} fun t => Holds rd s.mmu.far t := by
  have hl : loadMmuRegister (altAddress rs1 rs2 s) s = .ok s.mmu.far s := by rw [ha]; rfl
  exact loadsRegister rd h hl (.refl _ s) fun t hv _ => hv

/-- MFSR and MFAR are not stored, as far as the spec describes them (R665, R666). -/
theorem sta_faultRegister_refused (ha : altAddress rs1 rs2 s = 0x300 ∨ altAddress rs1 rs2 s = 0x400) :
    exec (.sta rd rs1 false 0x04 rs2) s = .refused .undescribedDirection := by
  have hs : storeMmuRegister (altAddress rs1 rs2 s) (readReg rd s) s = .refused .undescribedDirection := by
    rcases ha with ha | ha <;> rw [ha] <;> rfl
  exact sta_refused h ((storeAsi_mmuRegister ..).trans hs)

/-- MSFSR is absent and traps (R62). -/
theorem msfsr_traps (ha : altAddress rs1 rs2 s = 0x1500) :
    Traps (.lda rd rs1 false 0x04 rs2) 0x09 s ∧ Traps (.sta rd rs1 false 0x04 rs2) 0x09 s := by
  have hl : loadMmuRegister (altAddress rs1 rs2 s) s = .trap ttDataAccess s := by rw [ha]; rfl
  have hs : storeMmuRegister (altAddress rs1 rs2 s) (readReg rd s) s = .trap ttDataAccess s := by rw [ha]; rfl
  exact ⟨lda_traps h (congrArg wordRes hl), sta_traps h ((storeAsi_mmuRegister ..).trans hs)⟩

theorem mmuRegister_accesses_refused (ha : (altAddress rs1 rs2 s).toNat ∉ [0x000, 0x100, 0x200, 0x300, 0x400, 0x1500]) :
    exec (.lda rd rs1 false 0x04 rs2) s = .refused .asiRegister ∧
      exec (.sta rd rs1 false 0x04 rs2) s = .refused .asiRegister := by
  obtain ⟨hl, hs⟩ := mmuRegister_refused ha (readReg rd s) s
  exact ⟨lda_refused h (congrArg wordRes hl), sta_refused h ((storeAsi_mmuRegister ..).trans hs)⟩

end Registers

/-! ## The obligation -/

/-- The TLBs and the pointer caches in ASI 0x05 and 0x06. -/
theorem tlb_diagnostics (rd : Reg) {rs1 rs2 : Reg} {s : State} (h5 : SpecialAccess .word rs1 rs2 0x05 s)
    (h6 : SpecialAccess .word rs1 rs2 0x06 s) :
    let a := altAddress rs1 rs2 s
    let v := readReg rd s
    (∀ k : Fin 64, k.val = a.toNat / 4096 % 64 →
      EntryAccesses true 0x06 rd rs1 rs2 s s.mmu.dtlb (fun x => { s.mmu with dtlb := x }) k) ∧
    (∀ k : Fin 16, k.val = a.toNat / 4096 % 16 →
      EntryAccesses false 0x05 rd rs1 rs2 s s.mmu.itlb (fun x => { s.mmu with itlb := x }) k) ∧
    (∀ k : Fin 4, k.val = a.toNat / 4096 % 4 →
      PointerAccesses 0x06 rd rs1 rs2 s s.mmu.dptp2[k] (fun p => { s.mmu with dptp2 := s.mmu.dptp2.set k p })) ∧
    PointerAccesses 0x05 rd rs1 rs2 s s.mmu.iptp2 (fun p => { s.mmu with iptp2 := p }) ∧
    ∀ asi ∈ ([0x05, 0x06] : List Asi),
      ((a.extractLsb' 8 3).toNat = 4 →
        ReadsWord asi rd rs1 rs2 s (· = s.mmu.ptp0.ptr ++ 0#4 ++ s.mmu.ptp0.valid) ∧
        (v.getLsbD 1 = true → exec (.sta rd rs1 false asi rs2) s = .refused .ptpValid) ∧
        (v.getLsbD 1 = false → WritesMmu asi rd rs1 rs2 s
          { s.mmu with ptp0 := { ptr := v.extractLsb' 6 26, valid := v.extractLsb' 0 2 } })) ∧
      ((a.extractLsb' 8 3).toNat ∈ [0, 1, 7] →
        exec (.lda rd rs1 false asi rs2) s = .refused .tlbSelect ∧
        exec (.sta rd rs1 false asi rs2) s = .refused .tlbSelect) := by
  intro a v
  refine ⟨fun k hk => entryAccesses h6 tlbSpace_data rd (selectsEntry_data hk s),
    fun k hk => entryAccesses h5 tlbSpace_instr rd (selectsEntry_instr hk s), fun k hk => ?_,
    pointerAccesses h5 tlbSpace_instr rd rfl fun _ => rfl, ?_⟩
  · obtain rfl : ptp2Index a = k := index_eq (m := 2) a hk
    exact pointerAccesses h6 tlbSpace_data rd rfl fun _ => rfl
  · simp only [List.forall_mem_cons]
    exact ⟨⟨ptp0_accesses h5 tlbSpace_instr rd, tlbSelect_refused h5 tlbSpace_instr rd⟩,
      ⟨ptp0_accesses h6 tlbSpace_data rd, tlbSelect_refused h6 tlbSpace_data rd⟩,
      List.forall_mem_nil _⟩

/-- Settles O49: each register of ASI 0x04, then the diagnostic spaces. -/
theorem mmuRegisters : Obligations.MmuRegisters := by
  intro rd rs1 rs2 s hs a v v' store load uncleared
  have word (ha : a.toNat % 4 = 0) {asi : Asi} (h : asi.toNat < 8 ∨ 11 < asi.toNat) (hb : asi.extractLsb' 4 4 ≠ 2) :
      SpecialAccess .word rs1 rs2 asi s := specialAccess_word hs ha h hb
  have register {x : Word} (ha : a = x) (hx : x.toNat % 4 = 0) : SpecialAccess .word rs1 rs2 0x04 s :=
    word (ha ▸ hx) (.inl (by decide)) (by decide)
  refine ⟨fun ha => ?_, fun ha => ?_, fun ha => ?_, fun ha => ?_, fun ha => ?_, fun ha => ?_, fun ha => ?_, fun ha hn => ?_,
    fun ha => ?_, fun ha he => ?_, fun ha => ?_⟩
  · obtain ⟨refused, stores⟩ := sta_mcntl rd (register ha (by decide)) ha
    refine ⟨refused, fun hc => ?_, ?_⟩
    · obtain ⟨t, hx, hadv, hf, hi, hd, hm⟩ := stores hc
      refine ⟨t, hx, hadv, hf, hi, hd, ?_⟩
      rw [hm]
      exact ⟨rfl, rfl, rfl, rfl, rfl, rfl, rfl, rfl, rfl, rfl, rfl, rfl⟩
    · obtain ⟨t, hx, hadv, hf, hv⟩ := lda_mcntl rd (register ha (by decide)) ha
      exact ⟨t, hx, hadv, hf, _, hv, mcntlWord_fields s⟩
  · have h := register ha (by decide)
    exact ⟨sta_mctp rd h ha, lda_mctp rd h ha⟩
  · have h := register ha (by decide)
    exact ⟨sta_mctx rd h ha, lda_mctx rd h ha⟩
  · obtain ⟨t, hx, hadv, hf, hv, hm⟩ := lda_mfsr rd (register ha (by decide)) ha
    obtain ⟨how, hfav, hft, hat, hl, hhigh⟩ := mfsrWord_fields s
    refine ⟨t, hx, hadv, hf, _, hv, how, hfav, hft, hat, hl, hhigh, ?_⟩
    rw [hm]
    exact ⟨rfl, rfl, rfl, rfl, rfl, rfl, rfl⟩
  · exact lda_mfar rd (register ha (by decide)) ha
  · exact sta_faultRegister_refused rd (ha.elim (register · (by decide)) (register · (by decide))) ha
  · exact msfsr_traps rd (register ha (by decide)) ha
  · exact mmuRegister_accesses_refused rd (word ha (.inl (by decide)) (by decide)) hn
  · exact tlb_diagnostics rd (word ha (.inl (by decide)) (by decide)) (word ha (.inl (by decide)) (by decide))
  · have h : SpecialAccess .dword rs1 rs2 0x0E s := specialAccess_dword hs ha (.inr (by decide)) (by decide)
    exact ⟨stda_dtag h he, ldda_dtag h he⟩
  · have h36 : SpecialAccess .word rs1 rs2 0x36 s := word ha (.inr (by decide)) (by decide)
    have h37 : SpecialAccess .word rs1 rs2 0x37 s := word ha (.inr (by decide)) (by decide)
    refine ⟨sta_flashClearInstr h36, sta_flashClear h37, ?_⟩
    simp only [List.forall_mem_cons]
    exact ⟨lda_refused h36 rfl, lda_refused h37 rfl, List.forall_mem_nil _⟩

end Sys2Proof.Machine
end

section
/-! Traps (60_exceptions.md, R765, R790 to R797): the entry into a handler and into error mode, the way back, and the
privileged instructions in user mode. -/

namespace Sys2Proof.Machine

open Sys2Proof.Spec

/-! ## Entry (R790) -/

section Entry

variable {s : State} (he : s.psr.et = true) (tt : TrapType)
include he

theorem takeTrap_psr_of_et :
    (takeTrap tt s).psr = { s.psr with et := false, ps := s.psr.s, s := true, cwp := s.psr.cwp - 1 } := by
  rw [takeTrap_of_et he]

theorem takeTrap_pc_of_et : (takeTrap tt s).pc = s.tbr.tba ++ tt ++ 0#4 := by
  rw [takeTrap_of_et he]
  rfl

theorem takeTrap_npc_of_et : (takeTrap tt s).npc = (takeTrap tt s).pc + 4 := by
  rw [takeTrap_of_et he]

theorem takeTrap_condTaken_of_et : (takeTrap tt s).condTaken = false := by
  rw [takeTrap_of_et he]

end Entry

/-- Settles O35, by the entry into a trap handler, field by field. -/
theorem trapEntry : Obligations.TrapEntry := by
  intro tt s he t
  obtain ⟨h17, h18⟩ := readReg_takeTrap he tt
  exact ⟨takeTrap_psr_of_et he tt, h17, h18, takeTrap_tbr tt s, takeTrap_pc_of_et he tt, takeTrap_npc_of_et he tt,
    (Frame.refl _ s).takeTrap he tt (by simp) (by simp) rfl rfl rfl⟩

/-! ## Error mode (R797, D34) -/

theorem step_of_errorMode {s : State} (h : s.errorMode = true) : step s = .fault .errorMode := if_pos h

/-- A processor in error mode runs no step. -/
theorem not_safeFor_of_errorMode {s : State} (h : s.errorMode = true) (n : Nat) : ¬ SafeFor (n + 1) s := by
  rintro ⟨t, ht, -⟩
  rw [step_of_errorMode h] at ht
  exact nomatch ht

/-- Settles O36: the entry writes TBR.tt and the halt, and a halted processor does not step. -/
theorem errorMode : Obligations.ErrorMode := by
  intro tt s he t
  have ht : t = { s with tbr := { s.tbr with tt := tt }, errorMode := true, trapped := true } := takeTrap_of_not_et he tt
  have hm : t.errorMode = true := by rw [ht]
  refine ⟨hm, takeTrap_tbr tt s ▸ rfl, by rw [ht], by rw [ht], by rw [ht], ?_, step_of_errorMode hm,
    not_safeFor_of_errorMode hm⟩
  rw [ht]
  exact { Frame.refl _ s with tt := nofun }

/-! ## The way back (R793) -/

/-- `%g0` as the second operand leaves the first. -/
theorem address_reg_zero (rs1 : Reg) (s : State) : address rs1 (.reg 0) s = readReg rs1 s := BitVec.add_zero _

theorem jump_of_not_condTaken {s : State} (h : s.condTaken = false) (k : Bool) (t : Word) :
    jump k t s = { s with pc := s.npc, npc := t, condTaken := k } :=
  transfer_of_not_condTaken h k s.npc t

theorem returnFromTrap_of_not_condTaken {s : State} (h : s.condTaken = false) (t : Word) :
    returnFromTrap t s =
      { s with
        psr := { s.psr with et := true, cwp := s.psr.cwp + 1, s := s.psr.ps }
        pc := s.npc
        npc := t
        condTaken := false } :=
  jump_of_not_condTaken (s := { s with psr := { s.psr with et := true, cwp := s.psr.cwp + 1, s := s.psr.ps } }) h false t

/-- `jmpl %l1, %g0` is the jump to the word address in `%l1`. -/
theorem exec_jmpl_l1 {s : State} (h : AlignedWord (readReg 17 s)) :
    exec (.jmpl 0 17 (.reg 0)) s = .next (jump false (readReg 17 s) s) := by
  rw [← address_reg_zero] at h ⊢
  exact exec_jmpl_of_aligned ((alignedWord_iff _).mp h)

/-- `rett %l2` in a handler is the return to the word address in `%l2`, if WIM permits the window above. -/
theorem exec_rett_l2 {s : State} (hs : s.psr.s = true) (he : s.psr.et = false)
    (hw : ¬ s.wim.getLsbD (s.psr.cwp + 1).toNat = true) (h : AlignedWord (readReg 18 s)) :
    exec (.rett 18 (.reg 0)) s = .next (returnFromTrap (readReg 18 s) s) := by
  rw [← address_reg_zero] at h ⊢
  exact Rett.exec_of_aligned hs he hw ((alignedWord_iff _).mp h)

/-- Settles O37: the jump brings the saved pc into npc, and the return brings it into pc and the saved npc after it. -/
theorem trapThenReturnResumes : Obligations.TrapThenReturnResumes := by
  intro tt s he hpc hnpc hwim
  obtain ⟨h17, h18⟩ := readReg_takeTrap he tt
  have hpsr := takeTrap_psr_of_et he tt
  have hc := takeTrap_condTaken_of_et he tt
  have hjmpl := exec_jmpl_l1 (h17.symm ▸ hpc)
  rw [h17, jump_of_not_condTaken hc] at hjmpl
  let t : State := { takeTrap tt s with pc := (takeTrap tt s).npc, npc := s.pc, condTaken := false }
  have hrett : exec (.rett 18 (.reg 0)) t = .next (returnFromTrap s.npc t) := by
    have h18' : readReg 18 t = s.npc := h18
    rw [← h18']
    refine exec_rett_l2 (congrArg Psr.s hpsr) (congrArg Psr.et hpsr) ?_ (h18'.symm ▸ hnpc)
    simpa [t, hpsr] using hwim
  refine ⟨t, _, hjmpl, hrett, ?_⟩
  rw [returnFromTrap_of_not_condTaken (s := t) rfl]
  simp [t, hpsr, MemKept]

/-! ## Privilege (R765) -/

/-- Settles O32: each of them stands behind the test of PSR.S. -/
theorem privilegedInstructionsTrap : Obligations.PrivilegedInstructionsTrap := by
  intro rd rs1 rs2 o i asi s hs
  have hpriv (body : Result) := privileged_of_user hs body
  have halt (body : Result) := alternate_of_user hs i body
  simp only [List.forall_mem_cons]
  exact ⟨hpriv _, hpriv _, hpriv _, hpriv _, hpriv _, hpriv _, Rett.traps_of_user hs, halt _, halt _, halt _, halt _,
    halt _, halt _, halt _, halt _, halt _, halt _, halt _, halt _, hpriv _, List.forall_mem_nil _⟩

end Sys2Proof.Machine
end

section
/-! What a step adds to its instruction: the counters (R820, R821, D20), and an interrupt in its place (R775, R781 to
R784). -/

namespace Sys2Proof.Machine

open Sys2Proof.Spec

/-! ## The counters -/

/-- The monitor after a step, whether or not a counter is enabled. -/
theorem count_mon (old new : State) :
    (count old new).mon =
      let c := old.mon.ctrc
      let onA := counting c.aen c.ua c.ka old
      let onB := counting c.ben c.ub c.kb old
      let ranA := !new.trapped && !new.wroteA
      let ranB := !new.trapped && !new.wroteB
      { new.mon with
        counterA := counted c.selA onA ranA new.mon.counterA new
        counterB := counted c.selB onB ranB new.mon.counterB (drawn new)
        pendA := new.mon.pendA ||
          (zeroEvent c.selA onA ranA new.mon.counterA && intA new.mon.action && live new.mon.action)
        pendB := new.mon.pendB ||
          (zeroEvent c.selB onB ranB new.mon.counterB && intB new.mon.action && live new.mon.action) } := by
  unfold count
  dsimp only
  split_ifs with h
  · rfl
  · obtain ⟨hA, hB⟩ := Bool.or_eq_false_iff.mp (Bool.eq_false_of_not_eq_true h)
    simp [counted, zeroEvent, hA, hB]

theorem counting_iff (enable user kernel : Bool) (s : State) :
    counting enable user kernel s = true ↔ enable = true ∧ (if s.psr.s then kernel else user) = true := by
  rw [counting, Bool.and_eq_true]

theorem live_iff (action : BitVec 13) : live action = true ↔ bcipl action ≠ 0 := bne_iff_ne

theorem zeroEvent_iff (sel : BitVec 8) (on ran : Bool) (c : Word) :
    zeroEvent sel on ran c = true ↔ on = true ∧ ran = true ∧ sel = 1 ∧ c = 1 := by
  simp [zeroEvent, and_assoc]

/-- A counter that counts neither the instruction nor cycles keeps its value. -/
theorem counted_of_idle {sel : BitVec 8} {on ran : Bool} (hi : ¬ (on = true ∧ ran = true ∧ sel = 1))
    (hc : ¬ (on = true ∧ sel = 0)) (c : Word) (s : State) : counted sel on ran c s = c := by
  rw [counted, if_neg (by simpa using hc), if_neg (by simpa [and_assoc] using hi)]

/-- A request to which an event is added. -/
theorem request_or {p e : Bool} {event : Prop} (h : e = true ↔ event) :
    (event → (p || e) = true) ∧ (¬ event → (p || e) = p) := by
  rw [← h]
  cases e <;> simp

/-- One counter after an instruction that did not trap: `c` is its value and `p` its request as the instruction left them,
`w` that the instruction wrote it, `i` and `a` what ACTION enables, `x` the source of a free value. -/
theorem counter_after_instruction (enable user kernel w p i : Bool) (sel : BitVec 8) (c : Word) (a : BitVec 13)
    (s x : State) :
    let on := enable = true ∧ (if s.psr.s then kernel else user) = true
    let counts := on ∧ sel = 1 ∧ w = false
    let event := counts ∧ c = 1 ∧ i = true ∧ bcipl a ≠ 0
    let c' := counted sel (counting enable user kernel s) (!w) c x
    let p' := p || (zeroEvent sel (counting enable user kernel s) (!w) c && i && live a)
    (counts → c' = c - 1) ∧ (¬ counts → ¬ (on ∧ sel = 0) → c' = c) ∧ (event → p' = true) ∧ (¬ event → p' = p) := by
  simp only [← counting_iff, ← live_iff]
  refine ⟨?_, fun hn h0 => counted_of_idle ?_ h0 c x, request_or ?_⟩
  · rintro ⟨hon, rfl, rfl⟩
    simp [counted, hon]
  · simpa [and_comm] using hn
  · simp only [Bool.and_eq_true, zeroEvent_iff, Bool.not_eq_true']
    tauto

/-- Settles O7: after an instruction that has not trapped each counter is as `counter_after_instruction` says. -/
theorem instructionCountDecrements : Obligations.InstructionCountDecrements := by
  intro s t he hi hrun ht
  refine ⟨count (beginStep s) t, ?_, count_pc .., count_psr .., count_mem .., ?_, ?_⟩
  · rw [step_of_not_interrupted he hi, hrun]
    rfl
  · rw [count_mon, ht]
    exact counter_after_instruction ..
  · rw [count_mon, ht]
    exact counter_after_instruction ..

/-! ## Interrupts -/

theorem interrupted_iff (s : State) : interrupted s = true ↔
    s.psr.et = true ∧ requestLevel s ≠ 0 ∧ (requestLevel s = 15 ∨ s.psr.pil.toNat < (requestLevel s).toNat) := by
  simp [interrupted, and_assoc]

/-- The trap type of an interrupt (R781). -/
theorem interruptType_eq (level : BitVec 4) : 0x1#4 ++ level = 0x10#8 + level.setWidth 8 := by
  revert level
  decide

/-- Where an interrupt is accepted and the instruction at pc does not trap, the step is the interrupt, also where the model
stops on that instruction (log 52). -/
theorem step_of_interrupted {s : State} (he : s.errorMode = false) (hi : interrupted s = true)
    (h : ∀ t, runInstruction (beginStep s) = .next t → t.trapped = false) : step s = .next (interruptStep s) := by
  simp only [step, runStep, he, hi, if_true, Bool.false_eq_true, if_false]
  cases hr : runInstruction (beginStep s) with
  | next t => simp [counter, h t hr]
  | fault e => rfl
  | refused e => rfl

/-- An interrupt is a trap that writes the monitor, too. -/
theorem takeInterrupt_only (s : State) :
    takeInterrupt s = { takeTrap (0x1#4 ++ requestLevel s) s with mon := (takeInterrupt s).mon } := by
  unfold takeInterrupt
  dsimp only
  split_ifs <;> rfl

/-- The entry of an interrupt is that of a trap with its type (R781). -/
theorem interruptStep_entry (s : State) :
    (interruptStep s).psr = (takeTrap (0x1#4 ++ requestLevel s) s).psr ∧
      (interruptStep s).tbr = (takeTrap (0x1#4 ++ requestLevel s) s).tbr ∧
      (interruptStep s).pc = (takeTrap (0x1#4 ++ requestLevel s) s).pc ∧
      (interruptStep s).mem = (takeTrap (0x1#4 ++ requestLevel s) s).mem ∧
      ∀ r, readReg r (interruptStep s) = readReg r (takeTrap (0x1#4 ++ requestLevel s) s) := by
  simp only [interruptStep, count_psr, count_tbr, count_pc, count_mem, readReg_count]
  rw [takeInterrupt_only]
  exact ⟨rfl, rfl, rfl, rfl, fun _ => rfl⟩

/-- A step that takes an interrupt raises no event of the counters (D20): the requests are those the interrupt has left. -/
theorem interruptStep_mon (s : State) :
    (interruptStep s).mon =
      { (takeInterrupt s).mon with
        counterA := (interruptStep s).mon.counterA
        counterB := (interruptStep s).mon.counterB } := by
  have htrapped : (takeInterrupt s).trapped = true := by rw [takeInterrupt_only]; exact takeTrap_trapped ..
  simp [interruptStep, count_mon, zeroEvent, htrapped]

/-- R784, R82: an interrupt of the monitor withdraws its requests and records in CTRS which counter made one. -/
theorem takeInterrupt_mon_of_monitor {s : State} (h : (externalLevel s).toNat ≤ (monitorLevel s).toNat) :
    (takeInterrupt s).mon =
      { s.mon with
        zacis := s.mon.zacis || s.mon.pendA
        zbcis := s.mon.zbcis || s.mon.pendB
        pendA := false
        pendB := false
        pendC := false
        pendD := false } := by
  simp [takeInterrupt, h]

theorem takeInterrupt_mon_of_external {s : State} (h : (monitorLevel s).toNat < (externalLevel s).toNat) :
    (takeInterrupt s).mon = s.mon := by
  simp [takeInterrupt, Nat.not_le.mpr h]

/-- Settles O6: an accepted interrupt is a trap entry with the type of its level, unless the instruction at pc traps. -/
theorem interruptTaken : Obligations.InterruptTaken := by
  intro s he het hlevel hpil
  refine ⟨fun hrun => ?_, fun t ht htr => ?_⟩
  · refine ⟨interruptStep s, step_of_interrupted he ((interrupted_iff s).mpr ⟨het, hlevel, hpil⟩) hrun, ?_⟩
    obtain ⟨hpsr, htbr, hpc, hmem, hregs⟩ := interruptStep_entry s
    obtain ⟨h17, h18⟩ := readReg_takeTrap het (0x1#4 ++ requestLevel s)
    rw [takeTrap_psr_of_et het] at hpsr
    rw [takeTrap_pc_of_et het] at hpc
    rw [← interruptType_eq, hpsr, htbr, hpc, hregs, hregs, MemKept, hmem, interruptStep_mon]
    refine ⟨by simp, rfl, rfl, rfl, rfl, rfl, h17, h18, rfl, by simp, fun h => ?_, fun h => ?_⟩
    · rw [takeInterrupt_mon_of_monitor h]
      exact ⟨rfl, rfl, rfl, rfl, rfl, rfl⟩
    · rw [takeInterrupt_mon_of_external h]
      exact ⟨rfl, rfl, rfl, rfl, rfl, rfl⟩
  · exact ⟨_, step_of_trapped he ht htr, by simp, by simp, by simp, by simp⟩

end Sys2Proof.Machine
end

section
/-! The state after reset and after a watchdog reset (70_reset_and_hazards.md, R120, R798, R851, R852). -/

namespace Sys2Proof.Machine

open Sys2Proof.Spec

theorem inv_reset : Inv State.reset where
  pc := rfl
  npc := rfl
  mem := reset_mem_wf
  queue := Nat.zero_le _
  mode := ⟨fun _ => rfl, fun _ => rfl⟩
  trapType := by decide
  itlb := by decide
  context := BitVec.zero_and
  dataUnlocked := rfl
  instrUnlocked := rfl
  instrCache := nofun
  dataCache := nofun
  physicalMatch := rfl
  selectA := by decide
  selectB := by decide
  cycles := rfl
  pendA := nofun
  pendB := nofun
  pendC := nofun
  pendD := nofun

/-- R166: with the MMU off a fetch in boot mode goes to the page of the platform. -/
theorem fetchPage_of_boot {s : State} (he : s.mmu.cntl.en = false) (hb : s.mmu.cntl.bt = true) (va : Word) :
    fetchPage va s = .ok (bootAddress va) s := by
  simp [fetchPage, he, hb]

/-- Settles O9: the state after reset is a closed term, and the watchdog reset lists what it writes. -/
theorem resetState : Obligations.ResetState := by
  refine ⟨inv_reset, rfl, rfl, rfl, rfl, by decide, rfl, rfl, rfl, rfl, rfl, by decide, by decide, ?_⟩
  intro s t
  exact ⟨rfl, rfl, rfl, rfl, rfl, rfl, rfl, rfl, rfl, rfl, rfl, rfl, rfl, rfl, rfl, fetchPage_of_boot rfl rfl 0⟩

end Sys2Proof.Machine
end

section
/-! What user mode cannot change (R801): the control registers through every instruction that completes. -/

namespace Sys2Proof.Machine

open Sys2Proof.Spec

/-! ## The control registers -/

/-- The control registers are in `t` as they were in `s`: of the PSR only icc and CWP may differ, and of the monitor only the
request of a data breakpoint, which ACTION must enable (R784). -/
structure ControlKept (s t : State) : Prop where
  psr : t.psr = { s.psr with n := t.psr.n, z := t.psr.z, v := t.psr.v, c := t.psr.c, cwp := t.psr.cwp }
  wim : t.wim = s.wim
  tbr : t.tbr = s.tbr
  cntl : t.mmu.cntl = s.mmu.cntl
  ctp : t.mmu.ctp = s.mmu.ctp
  ctx : t.mmu.ctx = s.mmu.ctx
  mon : t.mon = { s.mon with pendD := t.mon.pendD }
  pendD : t.mon.pendD = true → s.mon.pendD = true ∨ intD s.mon.action = true
  dtags : t.dtags = s.dtags
  icacheCleared : t.icacheCleared = s.icacheCleared

namespace ControlKept

variable {s t u : State}

theorem refl (s : State) : ControlKept s s := ⟨rfl, rfl, rfl, rfl, rfl, rfl, rfl, .inl, rfl, rfl⟩

theorem trans (h : ControlKept s t) (g : ControlKept t u) : ControlKept s u where
  psr := by rw [g.psr, h.psr]
  wim := g.wim.trans h.wim
  tbr := g.tbr.trans h.tbr
  cntl := g.cntl.trans h.cntl
  ctp := g.ctp.trans h.ctp
  ctx := g.ctx.trans h.ctx
  mon := by rw [g.mon, h.mon]
  pendD e := (g.pendD e).elim h.pendD fun i => .inr (by rw [h.mon] at i; exact i)
  dtags := g.dtags.trans h.dtags
  icacheCleared := g.icacheCleared.trans h.icacheCleared

/-- A change of other parts of the state. -/
theorem of_unchanged (hp : t.psr = s.psr := by simp) (hw : t.wim = s.wim := by simp) (ht : t.tbr = s.tbr := by simp)
    (hm : t.mmu = s.mmu := by simp) (hn : t.mon = s.mon := by simp) (hd : t.dtags = s.dtags := by simp)
    (hi : t.icacheCleared = s.icacheCleared := by simp) : ControlKept s t :=
  ⟨by rw [hp], hw, ht, by rw [hm], by rw [hm], by rw [hm], by rw [hn], fun e => .inl (hn ▸ e), hd, hi⟩

/-- A change of icc and CWP. -/
theorem setPsr {p : Psr} (h : p = { s.psr with n := p.n, z := p.z, v := p.v, c := p.c, cwp := p.cwp }) :
    ControlKept s { s with psr := p } :=
  { refl s with psr := h }

end ControlKept

/-! ## The operations an instruction ends with -/

theorem controlKept_drawn (s : State) : ControlKept s (drawn s) := .of_unchanged

theorem controlKept_advance (s : State) : ControlKept s (advance s) := .of_unchanged

theorem controlKept_writeReg (rd : Reg) (v : Word) (s : State) : ControlKept s (writeReg rd v s) := .of_unchanged

theorem controlKept_writeAdvance (rd : Reg) (v : Word) (s : State) : ControlKept s (advance (writeReg rd v s)) :=
  .of_unchanged

theorem controlKept_setY (v : Word) (s : State) : ControlKept s { s with y := v } := .of_unchanged

theorem controlKept_setIcc (i : Icc) (s : State) : ControlKept s (setIcc i s) := .setPsr rfl

theorem controlKept_writeIccAdvance (i : Icc) (rd : Reg) (v : Word) (s : State) :
    ControlKept s (advance (setIcc i (writeReg rd v s))) :=
  ((controlKept_writeReg ..).trans (controlKept_setIcc ..)).trans (controlKept_advance _)

theorem controlKept_transfer (k : Bool) (pc npc : Word) (s : State) : ControlKept s (transfer k pc npc s) := .of_unchanged

theorem controlKept_jump (k : Bool) (t : Word) (s : State) : ControlKept s (jump k t s) := .of_unchanged

theorem controlKept_branchIf (taken a : Bool) (disp22 : BitVec 22) (s : State) :
    ControlKept s (branchIf taken a disp22 s) := by
  unfold branchIf
  split_ifs
  · exact controlKept_jump ..
  · exact .of_unchanged
  · exact controlKept_advance s

theorem controlKept_branchAlways (a : Bool) (disp22 : BitVec 22) (s : State) :
    ControlKept s (branchAlways a disp22 s) := by
  unfold branchAlways
  split_ifs
  · exact controlKept_transfer ..
  · exact controlKept_jump ..

theorem controlKept_multiply (f : Word → Word → BitVec 64) (rd rs1 : Reg) (o : Opnd2) (s : State) :
    ControlKept s (multiply f rd rs1 o s) :=
  (controlKept_writeReg ..).trans (controlKept_setY ..)

/-- The result of an operate, or its place in the queue (R553). -/
theorem controlKept_deliver (i : Instr) (exc : BitVec 5) {write : State → State} (hw : ∀ s, ControlKept s (write s))
    (s : State) : ControlKept s (deliver i exc write s) := by
  by_cases he : exc &&& s.fsr.tem = 0
  · rw [deliver_of_masked he]
    exact (hw s).trans .of_unchanged
  · rw [deliver_of_enabled he]
    exact .of_unchanged

/-! ## Accesses to memory -/

/-- Accesses of the MMU leave its control, context and pointer registers. -/
theorem Translated.controlKept {s u : State} (h : Translated s u) : ControlKept s u where
  psr := by rw [h.only]
  wim := by rw [h.only]
  tbr := by rw [h.only]
  cntl := h.cntl
  ctp := h.ctp
  ctx := h.ctx
  mon := by rw [h.mon]
  pendD e := .inl (h.mon ▸ e)
  dtags := by rw [h.only]
  icacheCleared := by rw [h.only]

theorem controlKept_requestData (s : State) : ControlKept s (requestData s) where
  __ := ControlKept.refl s
  mon := rfl
  pendD := (reached_requestData s).pendD

theorem memoryTarget_controlKept {sp : Space} {kind : Access} {a : Word} {s u : State} {p : Option Target}
    (h : memoryTarget sp kind a s = .ok p u) : ControlKept s u := by
  cases sp with
  | bypass high => obtain ⟨-, rfl⟩ := Res.ok.inj h; exact .refl s
  | special => obtain ⟨-, rfl⟩ := Res.ok.inj h; exact .refl s
  | translated instr user =>
    obtain ⟨q, v, hq, hu⟩ := andThen_eq_ok.mp h
    have ht := translated_dataPage { va := a, kind := kind, instr := instr, user := user } s
    rw [hq] at ht
    refine (Translated.controlKept ht).trans ?_
    split_ifs at hu
    · obtain ⟨-, rfl⟩ := Res.ok.inj hu; exact controlKept_requestData v
    · obtain ⟨-, rfl⟩ := Res.ok.inj hu; exact .refl v

/-- R132: a load or store without an ASI goes to memory. -/
theorem spaceOf_dataAsi (s : State) : spaceOf (dataAsi s) ≠ .special := by
  unfold dataAsi
  split_ifs <;> decide

theorem memRead_controlKept {asi : Asi} {w : Width} {k : DwordKind} {a : Word} {s t : State} {d : BitVec 64}
    (hs : spaceOf asi ≠ .special) (h : memRead asi w k a s = .ok d t) : ControlKept s t := by
  obtain ⟨-, ⟨e, -⟩ | ⟨-, ⟨p, hp, -⟩ | ⟨u, hu, -, rfl⟩⟩⟩ := memRead_eq_ok h
  · exact absurd e hs
  · exact memoryTarget_controlKept hp
  · exact (memoryTarget_controlKept hu).trans (controlKept_drawn u)

theorem memWrite_controlKept {asi : Asi} {w : Width} {k : DwordKind} {a : Word} {d : BitVec 64} {s t : State}
    (hs : spaceOf asi ≠ .special) (h : memWrite asi w k a d s = .ok () t) : ControlKept s t := by
  obtain ⟨-, ⟨e, -⟩ | ⟨-, ⟨p, u, hp, rfl⟩ | hu⟩⟩ := memWrite_eq_ok h
  · exact absurd e hs
  · exact (memoryTarget_controlKept hp).trans .of_unchanged
  · exact memoryTarget_controlKept hu

theorem memSwap_controlKept {asi : Asi} {w : Width} {a : Word} {d e : BitVec 64} {s t : State}
    (h : memSwap asi w a d s = .ok e t) : ControlKept s t := by
  obtain ⟨-, -, ⟨p, u, hp, -, rfl⟩ | ⟨u, hu, -, rfl⟩⟩ := memSwap_eq_ok h
  · exact (memoryTarget_controlKept hp).trans .of_unchanged
  · exact (memoryTarget_controlKept hu).trans (controlKept_drawn u)

/-! ## Completion -/

/-- An instruction that began in `s` has taken a trap, or has left the control registers. -/
def Harmless (s : State) : Result → Prop := Answers fun t => t.trapped = false → ControlKept s t

section Harmless

variable {s : State}

theorem harmless_next {t : State} (h : ControlKept s t) : Harmless s (.next t) := fun _ => h

theorem harmless_trap {t : State} (h : t.trapped = true) : Harmless s (.next t) :=
  fun e => absurd (h.symm.trans e) (by decide)

theorem harmless_takeTrap {tt : TrapType} {t : State} : Harmless s (.next (takeTrap tt t)) :=
  harmless_trap (takeTrap_trapped tt t)

theorem harmless_takeTrapWith {tt : TrapType} {t u : State} : Harmless s (.next (takeTrapWith tt t u)) :=
  harmless_trap (takeTrapWith_trapped tt t u)

/-- An instruction with a part that can trap: only where that part goes on is there something to show. -/
theorem harmless_finish {α : Type} {x : Res α} {f : α → State → State} (hx : ∀ a u, x = .ok a u → ControlKept s u)
    (hf : ∀ a u, ControlKept u (f a u)) : Harmless s (finish s (andThen x fun a u => .ok () (f a u))) := by
  cases x with
  | ok a u => exact harmless_next ((hx a u rfl).trans (hf a u))
  | trap tt u => exact harmless_takeTrapWith
  | fault e => trivial
  | refused e => trivial

/-! ## The forms of the instructions -/

theorem harmless_privileged (hs : s.psr.s = false) (body : Result) : Harmless s (privileged s body) := by
  rw [privileged_of_user hs]
  exact harmless_takeTrap

theorem harmless_alternate (hs : s.psr.s = false) (i : Bool) (body : Result) : Harmless s (alternate i s body) := by
  rw [alternate_of_user hs]
  exact harmless_takeTrap

theorem harmless_trapIf (taken : Bool) (rs1 : Reg) (n : TrapNum) : Harmless s (trapIf taken rs1 n s) := by
  unfold trapIf
  split_ifs
  · exact harmless_takeTrap
  · exact harmless_next (controlKept_advance s)

theorem harmless_jmpl (rd rs1 : Reg) (o : Opnd2) : Harmless s (execJmpl rd rs1 o s) := by
  unfold execJmpl
  split_ifs
  · exact harmless_takeTrap
  · exact harmless_next ((controlKept_writeReg ..).trans (controlKept_jump ..))

theorem harmless_rett (hs : s.psr.s = false) (rs1 : Reg) (o : Opnd2) : Harmless s (exec (.rett rs1 o) s) := by
  rw [Rett.traps_of_user hs]
  exact harmless_takeTrap

theorem harmless_moveWindow (w : BitVec 3) (tt : TrapType) (rd rs1 : Reg) (o : Opnd2) :
    Harmless s (moveWindow w tt rd rs1 o s) := by
  unfold moveWindow
  split_ifs
  · exact harmless_takeTrap
  · exact harmless_next ((ControlKept.setPsr rfl).trans (controlKept_writeAdvance ..))

theorem harmless_aluTrap (f : Word → Word → Word) (icc : Word → Word → Word → Icc) (rd rs1 : Reg) (o : Opnd2) :
    Harmless s (aluTrap f icc rd rs1 o s) := by
  unfold aluTrap
  dsimp only
  split_ifs
  · exact harmless_takeTrap
  · exact harmless_next (controlKept_writeIccAdvance ..)

theorem divide_controlKept {wide : Word → Bool} {q : Word → Word → Word → Quotient} {rs1 : Reg} {o : Opnd2} (x : Quotient)
    (u : State) (h : divide wide q rs1 o s = .ok x u) : ControlKept s u := by
  unfold divide at h
  split_ifs at h
  obtain ⟨-, rfl⟩ := Res.ok.inj h
  exact .refl s

theorem harmless_loadPair {asi : Asi} (hs : spaceOf asi ≠ .special) (rd : Reg) (a : Word) :
    Harmless s (loadPair asi rd a s) := by
  unfold loadPair
  split_ifs
  · exact harmless_takeTrap
  · exact harmless_finish (fun _ _ => memRead_controlKept hs) fun _ _ =>
      (controlKept_writeReg ..).trans (controlKept_writeAdvance ..)

theorem harmless_storePair {asi : Asi} (hs : spaceOf asi ≠ .special) (rd : Reg) (a : Word) :
    Harmless s (storePair asi rd a s) := by
  unfold storePair
  split_ifs
  · exact harmless_takeTrap
  · exact harmless_finish (fun _ _ => memWrite_controlKept hs) fun _ _ => controlKept_advance _

/-- The gate of an operate or a branch on fcc either traps or opens. -/
theorem harmless_fpGate {body : Result} (h : Harmless s body) : Harmless s (fpGate s body) := by
  unfold fpGate
  split_ifs
  · exact harmless_takeTrap
  · split
    · exact harmless_takeTrapWith
    · exact harmless_takeTrapWith
    · exact h

theorem harmless_fpMemGate (isStore : Bool) (w : Width) (a : Word) {body : Result} (h : Harmless s body) :
    Harmless s (fpMemGate isStore w a s body) := by
  unfold fpMemGate
  by_cases he : s.psr.ef = false
  · rw [if_pos he]; exact harmless_takeTrap
  rw [if_neg he]
  by_cases ha : aligned w a = false
  · rw [if_pos ha]; exact harmless_takeTrap
  rw [if_neg ha]
  split
  · exact harmless_takeTrapWith
  · split_ifs
    · exact h
    · exact harmless_takeTrapWith
  · exact h

theorem harmless_fpop (i : Instr) (exc : BitVec 5) {write : State → State} (hw : ∀ s, ControlKept s (write s)) :
    Harmless s (fpop i exc write s) :=
  harmless_fpGate (harmless_next ((controlKept_deliver i exc hw s).trans (controlKept_advance _)))

theorem harmless_unimplemented (i : Instr) : Harmless s (unimplemented i s) :=
  harmless_fpGate (harmless_next .of_unchanged)

theorem harmless_fpLoad (w : Width) {put : BitVec 64 → State → State} (hp : ∀ d t, ControlKept t (put d t)) (a : Word) :
    Harmless s (fpLoad w put a s) :=
  harmless_fpMemGate false w a (harmless_finish (fun _ _ => memRead_controlKept (spaceOf_dataAsi s)) fun d t =>
    (hp d t).trans (controlKept_advance _))

theorem harmless_fpStore (w : Width) (k : DwordKind) (d : BitVec 64) {after : State → State}
    (ha : ∀ t, ControlKept t (after t)) (a : Word) : Harmless s (fpStore w k d after a s) :=
  harmless_fpMemGate true w a (harmless_finish (fun _ _ => memWrite_controlKept (spaceOf_dataAsi s)) fun _ t =>
    (ha t).trans (controlKept_advance _))

/-! ## The instructions -/

/-- In user mode every instruction traps or leaves the control registers. -/
theorem exec_harmless (hs : s.psr.s = false) (i : Instr) : Harmless s (exec i s) := by
  have hasi := spaceOf_dataAsi s
  cases i with
  | unimp | rdasr | wrasr => exact harmless_takeTrap
  | rdpsr | rdwim | rdtbr | wrpsr | wrwim | wrtbr | stdcq | stdfq => exact harmless_privileged hs _
  | rett rs1 o => exact harmless_rett hs rs1 o
  | lda | lduba | lduha | ldsba | ldsha | ldda | sta | stba | stha | stda | ldstuba | swapa =>
    exact harmless_alternate hs ..
  | nop | stbar => exact harmless_next (controlKept_advance s)
  | sethi | rdy => exact harmless_next (controlKept_writeAdvance ..)
  | wry | flush => exact harmless_next .of_unchanged
  | bn | be | ble | bl | bleu | bcs | bneg | bvs | bne | bg | bge | bgu | bcc | bpos | bvc =>
    exact harmless_next (controlKept_branchIf ..)
  | ba => exact harmless_next (controlKept_branchAlways ..)
  | fbn | fbne | fblg | fbul | fbl | fbug | fbg | fbu | fbe | fbue | fbge | fbuge | fble | fbule | fbo =>
    exact harmless_fpGate (harmless_next (controlKept_branchIf ..))
  | fba => exact harmless_fpGate (harmless_next (controlKept_branchAlways ..))
  | call => exact harmless_next ((controlKept_writeReg ..).trans (controlKept_jump ..))
  | jmpl => exact harmless_jmpl ..
  | save | restore => exact harmless_moveWindow ..
  | tn rs1 n => exact harmless_trapIf false rs1 n
  | ta rs1 n => exact harmless_trapIf true rs1 n
  | te | tle | tl | tleu | tcs | tneg | tvs | tne | tg | tge | tgu | tcc | tpos | tvc => exact harmless_trapIf ..
  | cbn | cb123 | cb12 | cb13 | cb1 | cb23 | cb2 | cb3 | cba | cb0 | cb03 | cb02 | cb023 | cb01 | cb013 | cb012
  | cpop1 | cpop2 | ldc | lddc | ldcsr | stc | stdc | stcsr => exact harmless_takeTrap
  | add | addx | sub | subx | and | andn | or | orn | xor | xnor | sll | srl | sra =>
    exact harmless_next (controlKept_writeAdvance ..)
  | addcc | addxcc | subcc | subxcc | andcc | andncc | orcc | orncc | xorcc | xnorcc | taddcc | tsubcc =>
    exact harmless_next (controlKept_writeIccAdvance ..)
  | taddcctv | tsubcctv => exact harmless_aluTrap ..
  | mulscc =>
    exact harmless_next
      ((((controlKept_writeReg ..).trans (controlKept_setIcc ..)).trans (controlKept_setY ..)).trans (controlKept_advance _))
  | umul | smul => exact harmless_next ((controlKept_multiply ..).trans (controlKept_advance _))
  | umulcc | smulcc =>
    exact harmless_next (((controlKept_multiply ..).trans (controlKept_setIcc ..)).trans (controlKept_advance _))
  | udiv | sdiv => exact harmless_finish divide_controlKept fun _ _ => controlKept_writeAdvance ..
  | udivcc | sdivcc => exact harmless_finish divide_controlKept fun _ _ => controlKept_writeIccAdvance ..
  | ld | ldub | lduh | ldsb | ldsh =>
    exact harmless_finish (fun _ _ => memRead_controlKept hasi) fun _ _ => controlKept_writeAdvance ..
  | ldd => exact harmless_loadPair hasi ..
  | st | stb | sth => exact harmless_finish (fun _ _ => memWrite_controlKept hasi) fun _ _ => controlKept_advance _
  | std => exact harmless_storePair hasi ..
  | ldstub | swap => exact harmless_finish (fun _ _ => memSwap_controlKept) fun _ _ => controlKept_writeAdvance ..
  | fmovs | fnegs | fabss | fadds | fsubs | fmuls | fdivs | fsqrts | fitos | fstoi | fdtoi | fdtos | faddd | fsubd | fmuld
  | fdivd | fsmuld | fsqrtd | fitod | fstod | fcmps | fcmpd | fcmpes | fcmped =>
    exact harmless_fpop _ _ fun _ => .of_unchanged
  | faddq | fsubq | fmulq | fdivq | fdmulq | fsqrtq | fitoq | fstoq | fdtoq | fqtoi | fqtos | fqtod | fcmpq | fcmpeq
  | fpop1Other | fpop2Other => exact harmless_unimplemented ..
  | ldf | lddf | ldfsr => exact harmless_fpLoad _ (fun _ _ => .of_unchanged) _
  | stf | stdf | stfsr => exact harmless_fpStore _ _ _ (fun _ => .of_unchanged) _

end Harmless

/-- Settles O38, by the rule of each instruction form: what completes in user mode leaves the control registers. -/
theorem userModeChangesNoControlState : Obligations.UserModeChangesNoControlState := by
  intro i s t hs _ he ht
  have h : ControlKept s t := (exec_harmless hs i).of_eq he ht
  exact ⟨h.psr, h.wim, h.tbr, h.cntl, h.ctp, h.ctx, h.mon, h.pendD, h.dtags, h.icacheCleared⟩

end Sys2Proof.Machine
end
